-- ==== Sys2Proof/Word.lean ====
section
/-!
DEFINITION. The words of the TVB4410 and the names of the things it numbers (spec/00_scope.md, "Numbers at a
glance"): bytes, register words, host addresses, the 32-bit microsecond time base, bus stations, and the
bounded numbers of ports, rings, slots and table entries.
-/
namespace Sys2Proof

abbrev Byte := BitVec 8
/-- A 32-bit word of the register window (11.1) or of a record. -/
abbrev Word32 := BitVec 32
/-- Host addresses are 64-bit everywhere (chapter 11). -/
abbrev Addr := BitVec 64
/-- A value of the time base, a 32-bit count of microseconds (R177). -/
abbrev Time := BitVec 32
/-- A 10-bit station number; 1023 is the broadcast address (R8). -/
abbrev Station := BitVec 10
/-- The 24 header bits as one value whose bit 23 is the first on the wire (11.7). -/
abbrev Header := BitVec 24

/-- Ports 0..3. -/
abbrev PortId := Fin 4
/-- Submission rings 0..31. -/
abbrev SubId := Fin 32
/-- Completion rings 0..15. -/
abbrev CplId := Fin 16
/-- Receive rings 0..15. -/
abbrev RcvId := Fin 16
/-- Interrupt vectors 0..15. -/
abbrev VecId := Fin 16
/-- Match entries 0..31. -/
abbrev MatchId := Fin 32
/-- Reply slots 0..31. -/
abbrev SlotId := Fin 32

end Sys2Proof
end

