-- ==== Sys2Proof/Syntax.lean ====
section
/-!
DEFINITION. The commands of the TVB4410: one constructor per row of spec/opcode_table.json. A command is a
happening in the sense of spec/00_scope.md ("Happenings and taken"): a register write, the end of a DMA transfer,
the carrying out of an administration command, an event on a bus segment, a timer, or a step the device takes
when its conditions hold. The operands are what the happening brings from outside the device; an administration
command brings none, because its parameters are those of the descriptor staged on submission ring 0 (R129, R178).
-/
namespace Sys2Proof

/-- The two lines of a segment (R1). -/
inductive Line where
  | bck | bda
  deriving DecidableEq, Repr

/-- The level of a line: dominant is low and the value 0, recessive is high and the value 1 (1.1). -/
inductive Level where
  | dominant | recessive
  deriving DecidableEq, Repr

/-- The end of a DMA read: a fault, or the bytes read. -/
inductive ReadEnd where
  | fault
  | data (bytes : List Byte)
  deriving DecidableEq, Repr

/-- The end of a DMA write: with or without a fault. -/
inductive WriteEnd where
  | ok | fault
  deriving DecidableEq, Repr

/-- The two conditions named by the row FRAME_BROKEN (R20): BDA rises inside a byte or slot, or BDA falls
while BCK is high. -/
inductive BreakCause where
  | rise | fall
  deriving DecidableEq, Repr

/-- The two moments of the row LINE_GOES_LOW (R7): the line goes low, and, for the idle time to count again, the line is
high again. -/
inductive LineMoment where
  | falls | rises
  deriving DecidableEq, Repr

/-- A ring that runs the coalescing of 8.4: a completion ring or a receive ring. -/
inductive RingRef where
  | completion (ring : CplId)
  | receive (ring : RcvId)
  deriving DecidableEq, Repr

/-- The commands, in the order of spec/opcode_table.json. A default is the row's usual case: lines that are high, a choice
that opens at once, a first bit. -/
inductive Instr where
  | powerOn
  | pcieLinkReset
  | functionLevelReset
  | enable
  | halt
  | resume
  /-- the selection of bits 10:8 of the engine word: bit 0 POST_REJECTED, bit 1 ACK_REJECTED, bit 2 CMD_REJECTED -/
  | clearNotes (selection : BitVec 3)
  | softReset
  /-- an engine command code (bits 3:0) that is none of the five -/
  | unknownEngineCommand (code : BitVec 4)
  /-- `high` names SETUP_ADDRESS_HIGH, otherwise SETUP_ADDRESS_LOW -/
  | setupAddressWrite (high : Bool) (value : Word32)
  /-- the word written to POST -/
  | post (word : Word32)
  /-- the word written to ACK -/
  | ack (word : Word32)
  /-- a write to word number `word` (offset 4 * word) that covers the bytes set in `enables` -/
  | ignoredRegisterWrite (word : Fin 8) (enables : BitVec 4) (value : Word32)
  | setupReadEnd (read : ReadEnd)
  | fetchStart (ring : SubId)
  | slotReadEnd (ring : SubId) (read : ReadEnd)
  | payloadReadEnd (ring : SubId) (read : ReadEnd)
  | unknownCommand
  | createSubmissionRing
  /-- `verdictBegun`: where the staged descriptor's frame is in an acknowledge slot on a reply byte, whether that
  slot's verdict bit has begun (R64) -/
  | deleteSubmissionRing (verdictBegun : Bool)
  | createCompletionRing
  | deleteCompletionRing
  | setVector
  | createReceiveRing
  | deleteReceiveRing
  | setPort
  /-- the levels of the two lines at the start, from which the port measures them (R21) -/
  | portControlStart (bck bda : Level := .recessive)
  /-- `bck`: where the command ends a hold, the level of BCK after the port's release (R21) -/
  | portControlStop (bck : Level := .recessive)
  | portControlRecover
  | readPortStats
  | statsWriteEnd (write : WriteEnd)
  | setMatch
  | clearMatch
  | setReply
  | setReplyReadEnd (read : ReadEnd)
  | clearReply
  | clearHealth
  | readHealth
  | healthWriteEnd (write : WriteEnd)
  /-- `verdictBegun` as for `deleteSubmissionRing` -/
  | abort (verdictBegun : Bool)
  /-- `opens`: the port's opening takes effect with this row. A choice whose opening is still to come (R51, R59) is given
  without it, and a second row with it marks the opening, unless another station's OPENING comes first. -/
  | schedulerChoice (port : PortId) (opens : Bool := true)
  | opening (port : PortId)
  /-- `bit` counts the header bits from 0, the first on the wire -/
  | arbitrationLoss (port : PortId) (bit : Fin 24)
  /-- `wire`: the 24 header bits as the wire carried them -/
  | headerJudgement (port : PortId) (wire : Header)
  | channelByte (port : PortId) (byte : Byte)
  /-- `length`: the frame's length byte -/
  | headerVerdict (port : PortId) (length : Byte)
  | byteReceived (port : PortId) (byte : Byte)
  /-- the levels of BDA at the slot's presence and verdict bits -/
  | acknowledgeSlot (port : PortId) (presence verdict : Level)
  | turnaroundSlot (port : PortId) (presence verdict : Level)
  | replyLengthByte (port : PortId) (length : Byte)
  | replyByte (port : PortId) (byte : Byte)
  /-- `bit`: the bit, counted from the first on the wire, of the byte that the port is sending -/
  | clash (port : PortId) (bit : Fin 8 := 0)
  | closing (port : PortId)
  | frameBroken (port : PortId) (cause : BreakCause)
  /-- `bda`: the level of BDA when the silence limit passes -/
  | frameSilence (port : PortId) (bda : Level)
  | idleGap (port : PortId)
  | holdCeilingPassed (port : PortId)
  /-- `line`: the line whose low time passes the stuck limit -/
  | stuckCondition (port : PortId) (line : Line)
  /-- `line`: the line that does not rise, or stays low -/
  | recoveryFailed (port : PortId) (line : Line := .bck)
  /-- `ring`: the submission ring whose staged ANSWER the window of its bound port takes; `bck`: where this
  ends the hold, the level of BCK after the port's release (R21) -/
  | answerTaken (ring : SubId) (bck : Level := .recessive)
  /-- `bck` as for `answerTaken` -/
  | answerLimitExpiry (port : PortId) (bck : Level := .recessive)
  | deadlineExpiry (ring : SubId)
  | replyStoreEnd (ring : SubId) (write : WriteEnd)
  | completionWriteStart (ring : CplId)
  | completionWriteEnd (ring : CplId) (write : WriteEnd)
  | receiveWriteStart (ring : RcvId)
  | receiveWriteEnd (ring : RcvId) (write : WriteEnd)
  | coalescingTimer (ring : RingRef)
  /-- the oldest message in flight on the vector ends -/
  | messageWriteEnd (vector : VecId) (write : WriteEnd)
  /-- `bda`: the level sampled when the pulse rises -/
  | clockPulse (port : PortId) (bda : Level)
  | lineGoesLow (port : PortId) (line : Line) (moment : LineMoment := .falls)
  /-- `bit`: the bit of the slot or byte in progress in which BCK stays low, counted from 0 -/
  | hold (port : PortId) (bit : Fin 8 := 0)
  /-- `bit` as for `clash` -/
  | overridden (port : PortId) (bit : Fin 8 := 0)
  deriving DecidableEq, Repr

end Sys2Proof
end

