-- ==== Sys2Proof/Decode.lean ====
section
/-!
DEFINITION. The host's question about the rows of spec/opcode_table.json that give bits. The TVB4410's table gives
no row any bits (every row's "fields" is empty and none has "fixed"), so no word spells a command. The formats that
the device does decode (register words, descriptors, the setup block, the bus header) stand in
Sys2Proof/Machine/Formats.lean and Sys2Proof/Machine/Operands.lean.
-/
namespace Sys2Proof

/-- The command that a word spells by the table's bits: none, since no row of the table gives bits. -/
def decodeTableWord (_nbits _w : Nat) : Option Instr := none

end Sys2Proof
end

