-- ==== Sys2Proof/Config.lean ====
section
/-!
DEFINITION. What the TVB4410 fixes once and for all: the constants of spec/ that more than one definition reads.
The spec leaves no value of the device to an implementation, so no constant here is opaque (notes/assumptions/1.md).
-/
namespace Sys2Proof.Config

/-- R7: the idle gap, in bit times. -/
def idleGapBits : Nat := 8
/-- R20: frame silence, in bit times. -/
def silenceBits : Nat := 64
/-- R20, R87: the largest length byte that does not break a frame. -/
def maxLength : Nat := 64
/-- R37: the most BCK pulses of one recovery procedure. -/
def maxPulses : Nat := 16
/-- R68: the capacity of the health table. -/
def healthCapacity : Nat := 64
/-- R44, R68, R144: the value at which attempt counts and failed counts saturate. -/
def countCap : Nat := 15
/-- R163: the value at which a receive ring's lost count saturates. -/
def lostCap : Nat := 65535
/-- R8: the broadcast address. -/
def broadcast : Station := 1023
/-- 11.1: the ID word, part code 0x4410, major revision 1, minor revision 0. -/
def idWord : Word32 := 0x44100100
/-- 11.1: the CAPACITY word, 4 bus ports, 32 submission, 16 completion and 16 receive rings. -/
def capacityWord : Word32 := 0x10102004

end Sys2Proof.Config
end

