-- ==== Sys2Proof/Machine/State.lean ====
section
/-!
DEFINITION. The state of the TVB4410: every register, context, table, queue, counter and line record that spec/
gives the device, as plain data, with its value after power-on (`State.reset`). A docstring names the rule that
gives a part; INVENTORY.md lists them all with their reset values.
-/
namespace Sys2Proof.Machine

/-- Why a step stops with a fault. There is none: every happening of spec/ has an effect that the rules give, down to
"no effect" (R59, R113, R149, R181), so no command stops this block. -/
inductive Fault where
  deriving DecidableEq, Repr

/-- Why a command has no meaning in the model. -/
inductive Refusal where
  /-- Raised by an arm of `exec` for a command that is not modelled. No arm raises it. Safe: a run stops. -/
  | notModelled (mnemonic : String)
  deriving DecidableEq, Repr

/-! ### Engine control (chapter 10) -/

/-- R169. -/
inductive EngineState where
  | disabled | starting | running | halting | halted | failed
  deriving DecidableEq, Repr

/-- R169, R180. -/
inductive FailureCause where
  | none | setupFault | setupInvalid | adminFetchFault | completionWriteFault | receiveWriteFault | messageWriteFault
  deriving DecidableEq, Repr

/-- R176: the three sticky notes. -/
structure Notes where
  postRejected : Bool
  ackRejected : Bool
  cmdRejected : Bool
  deriving DecidableEq, Repr

/-- The completion statuses (8.2, 11.5). -/
inductive Status where
  | success | truncated | noTarget | refused | framing | holdTimeout | clash | expired | arbExhausted | busStuck
  | portDown | barred | storeFault | aborted | tooLate | fetchFault | badDescriptor | badCommand | badParameter
  | inUse | notFound | portBusy
  deriving DecidableEq, Repr

/-! ### The bus side: frames, services, windows and ports (chapters 1, 2, 5, 6) -/

/-- The three frame kinds (R8). -/
inductive FrameKind where
  | send | query | notice
  deriving DecidableEq, Repr

/-- R1: the condition of a driver. -/
inductive Driver where
  | drivenLow | released
  deriving DecidableEq, Repr

/-- R2: the bus view. -/
inductive BusView where
  | free | busy
  deriving DecidableEq, Repr

/-- R2: the port's part in the current frame. A receiver that has not yet judged the header has role OBSERVER (R5);
`Position.header` tells it from one that has. -/
inductive Role where
  | initiator | target | listener | observer
  deriving DecidableEq, Repr

/-- R2: the named point of the frame. -/
inductive Position where
  /-- the scheduler has chosen, and the port's own opening has not taken effect yet (R5, R51) -/
  | opening
  /-- the header is in progress and `sampled` of its bits are known to have ended -/
  | header (sampled : Nat)
  | channelByte
  | lengthByte
  | headerSlot
  /-- payload or request byte `n` -/
  | byte (n : Nat)
  /-- the slot after payload or request byte `n` -/
  | byteSlot (n : Nat)
  | turnaround
  | replyLength
  | replyByte (n : Nat)
  /-- the slot after reply byte `n` -/
  | replySlot (n : Nat)
  /-- the port ends the frame itself: its closing follows -/
  | closing
  /-- at an end point of R19: the initiator's closing follows -/
  | done
  /-- a target whose REFUSE at the header slot has been driven -/
  | refused
  /-- a target that has been overridden (R17) waits for the closing; or an observer cannot tell where the frame stands -/
  | following
  deriving DecidableEq, Repr

/-- R53: the results of an attempt. -/
inductive AttemptResult where
  | noTarget | refused | framing | holdTimeout | clash | busStuck | success | truncated
  deriving DecidableEq, Repr

/-- R83: the actions of a match entry. -/
inductive Action where
  | deliver | replySlot | slotWrite | defer | refuse
  deriving DecidableEq, Repr

/-- R83: a match entry. The action is absent only in an entry that holds its reset values, whose fields are 0. The ring,
slot and expiry fields keep the byte that SET_MATCH carried, because unused fields are stored as given (R84, R99). -/
structure MatchEntry where
  valid : Bool
  /-- bit n for port n -/
  ports : BitVec 4
  /-- bit 0 SEND, bit 1 QUERY, bit 2 NOTICE -/
  kinds : BitVec 3
  channelValue : Byte
  channelMask : Byte
  sourceValue : BitVec 10
  sourceMask : BitVec 10
  action : Option Action
  targetRing : Byte
  slot : Byte
  notifyRing : Option Byte
  expiry : Byte
  deriving DecidableEq, Repr

/-- R81, R85: a copy of a match entry with its index. -/
structure Candidate where
  index : MatchId
  entry : MatchEntry
  deriving DecidableEq, Repr

/-- R81: the header verdict; `noPresence` is the table's NONE. -/
inductive HeaderVerdict where
  | accept | refuse | noPresence
  deriving DecidableEq, Repr

/-- R83, R110: the expiry answer. -/
inductive ExpiryAnswer where
  | empty | decline
  deriving DecidableEq, Repr

/-- R81: the service record. -/
structure ServiceRec where
  candidates : List Candidate
  hit : Option Candidate
  verdict : Option HeaderVerdict
  reservation : Option RcvId
  discard : Bool
  verdictTime : Option Time
  received : List Byte
  expected : Nat
  turnaround : Option ExpiryAnswer
  deriving DecidableEq, Repr

/-- R2: the frame record, with what R14, R17, R53, R54 and R107 keep for the port's part in the frame. -/
structure FrameRec where
  role : Role
  position : Position
  /-- the bit of the byte or slot in progress, as far as a row has named it; 0 from the row that ends the one before -/
  bit : Nat
  /-- the header bits as far as sampled, high bits first (R2, R10) -/
  rxHeader : Header
  channel : Option Byte
  length : Option Byte
  replyLength : Option Byte
  /-- initiator: the submission ring whose descriptor has its turn (R51); absent after a loss -/
  turn : Option SubId
  /-- initiator: payload bytes moved so far (R54) -/
  moved : Nat
  /-- initiator: the result that the closing in progress will report (R53) -/
  result : Option AttemptResult
  /-- initiator: when it released BCK and found it low (R13) -/
  holdSince : Option Time
  /-- HOLD has found BCK low in the bit that `bit` names: BCK's low time, where it counts, counts from the fall that began that
  bit (notes/assumptions/7.md) -/
  held : Bool
  /-- initiator: the hold ceiling has passed (R28) -/
  givenUp : Bool
  /-- initiator: it drives REFUSE in the slot of the reply byte in progress (R14, R17, R64) -/
  refusing : Bool
  /-- target side: the service record -/
  service : Option ServiceRec
  /-- target of a QUERY, from the end of the turnaround: the reply it sends (R107, R114) -/
  reply : List Byte
  /-- target of a QUERY: reply bytes whose slots the initiator read as ACCEPT (R114) -/
  accepted : Nat
  /-- target of a QUERY: it sends no more of its reply, since another station overrides it (R17) or replies where it has
  declined (notes/assumptions/29.md), and follows the frame -/
  overridden : Bool
  deriving DecidableEq, Repr

/-- R110: the details of a held query. -/
structure QueryDetails where
  token : BitVec 16
  source : Station
  channel : Byte
  length : Nat
  entry : MatchId
  ring : RcvId
  deriving DecidableEq, Repr

/-- R110: the latched reply. -/
inductive LatchedReply where
  | decline
  | reply (bytes : List Byte)
  deriving DecidableEq, Repr

/-- R110: the answer window, each field present in the states the rule names. -/
inductive Window where
  | none
  | waiting (query : QueryDetails) (expiry : ExpiryAnswer) (timer : Time)
  | replying (query : QueryDetails) (reply : LatchedReply) (ring : SubId)
  deriving DecidableEq, Repr

/-- R23: the nine port states. -/
inductive PortState where
  | off | idle | arbitrating | initiating | observing | serving | holding | recovering | faulted
  deriving DecidableEq, Repr

/-- R32: the four rates. -/
inductive Rate where
  | k125 | k250 | k500 | k1000
  deriving DecidableEq, Repr

/-- R32: a port's configuration. -/
structure PortConfig where
  station : Station
  rate : Rate
  /-- µs -/
  holdCeiling : Nat
  /-- µs -/
  answerLimit : Nat
  patience : Nat
  barThreshold : Nat
  /-- ms -/
  stuckLimit : Nat
  deriving DecidableEq, Repr

/-- R40: the nine statistics. -/
structure Stats where
  framesStarted : Word32
  arbitrationLost : Word32
  attemptsFailed : Word32
  framesServed : Word32
  inboundRefused : Word32
  framesBroken : Word32
  clashes : Word32
  stuckEvents : Word32
  healthUntracked : Word32
  deriving DecidableEq, Repr

/-- R37, R38: where the recovery procedure stands: the wait for BCK at its start, its BCK pulses, its closing up to BCK's
rise, the closing after a rise of BCK that came late, or the idle gap after the closing. -/
inductive RecoveryPhase where
  | waiting | clocking | closing | releasing | gap
  deriving DecidableEq, Repr

/-- R37: the recovery procedure of a RECOVERING port, with the moment from which its wait for a line counts: the start of the
procedure, the release of BCK that ends the low half in progress, or the release of BDA in the closing (R37, R38). -/
structure Recovery where
  phase : RecoveryPhase
  pulses : Nat
  waitSince : Time
  deriving DecidableEq, Repr

/-- R22: the port context, with the line record of R2. A line measure of R2 is kept as the time-base value it counts
from, absent while it does not count (notes/assumptions/7.md). -/
structure Port where
  state : PortState
  config : PortConfig
  stopPending : Bool
  bckDriver : Driver
  bdaDriver : Driver
  busView : BusView
  /-- idle time -/
  idleSince : Option Time
  /-- the idle time has reached the idle gap, where it stays (R2) -/
  idleFull : Bool
  /-- BCK low time (R21) -/
  bckLowSince : Option Time
  /-- BDA low time (R21) -/
  bdaLowSince : Option Time
  /-- silence time (R20) -/
  silenceSince : Option Time
  frame : Option FrameRec
  stats : Stats
  window : Window
  nextToken : BitVec 16
  recovery : Option Recovery
  /-- the engine has entered FAILED and the port drives on to the end of its byte or slot (R42) -/
  leaving : Bool
  deriving DecidableEq, Repr

/-! ### Submission rings (chapters 3 and 7) -/

/-- 7.4: the kinds of transfer descriptor. -/
inductive XferKind where
  | marker | send | query | notice | answer
  deriving DecidableEq, Repr

/-- 7.4, 11.3: a transfer descriptor's fields. -/
structure Desc where
  tag : BitVec 16
  kind : XferKind
  probe : Bool
  decline : Bool
  dest : Station
  channel : Byte
  outLength : Nat
  replyCapacity : Nat
  attemptLimit : Nat
  /-- ms -/
  deadline : Nat
  token : BitVec 16
  outBuffer : Addr
  replyBuffer : Addr
  deriving DecidableEq, Repr

/-- R44: the execution states. -/
inductive ExecState where
  | held | eligible | inAttempt | storing
  deriving DecidableEq, Repr

/-- R44: the execution record. -/
structure ExecRec where
  state : ExecState
  /-- effective attempt limit, 0 unlimited -/
  limit : Nat
  attempts : Nat
  losses : Nat
  deadlinePassed : Bool
  lastResult : Option AttemptResult
  lastBytes : Nat
  replyArea : List Byte
  deriving DecidableEq, Repr

/-- R123: a staged transfer descriptor; an ANSWER has no execution record. -/
structure StagedXfer where
  desc : Desc
  payload : List Byte
  time : Time
  exec : Option ExecRec
  deriving DecidableEq, Repr

/-- 11.4: an administration command with its parameters as the descriptor carries them. -/
inductive AdminCmd where
  | createSubmissionRing (ring port priority completion size : Nat) (base : Addr)
  | deleteSubmissionRing (ring : Nat)
  | createCompletionRing (ring vector threshold size delay : Nat) (base : Addr)
  | deleteCompletionRing (ring : Nat)
  | setVector (vector : Nat) (masked : Bool) (data : Word32) (address : Addr)
  | createReceiveRing (ring vector threshold policy size delay : Nat) (base : Addr)
  | deleteReceiveRing (ring : Nat)
  | setPort (port rate station holdCeiling answerLimit patience barThreshold stuckLimit : Nat)
  | portControl (port sub : Nat)
  | readPortStats (port : Nat) (clear : Bool) (buffer : Addr)
  | setMatch (index action : Nat) (ports : BitVec 4) (kinds : BitVec 3) (channelValue channelMask : Byte)
      (targetRing slot notifyRing : Byte) (notifyPresent : Bool) (expiry : Byte) (sourceValue sourceMask : Nat)
  | clearMatch (index : Nat)
  | setReply (slot length : Nat) (oneShot : Bool) (buffer : Addr)
  | clearReply (slot : Nat)
  | clearHealth (port scope station : Nat)
  | readHealth (buffer : Addr)
  | abort (ring : Nat) (tag : BitVec 16)
  /-- a transfer kind, or a code that is neither an administration command nor a transfer kind (R178) -/
  | unknown (code : Byte)
  deriving DecidableEq, Repr

/-- R123: what a submission ring has staged. -/
inductive Staged where
  | xfer (x : StagedXfer)
  | admin (tag : BitVec 16) (cmd : AdminCmd)
  deriving DecidableEq, Repr

/-- R122. -/
inductive SubState where
  | absent | active | draining | faulted
  deriving DecidableEq, Repr

/-- R123. -/
inductive Occupancy where
  | empty | fetching | staged | completing
  deriving DecidableEq, Repr

/-- R126, R131: the read in flight of a FETCHING ring, its slot read, or the payload read of the descriptor read. -/
inductive FetchRead where
  | slot
  | payload (desc : Desc)
  deriving DecidableEq, Repr

/-- R121: a submission ring context. -/
structure SubRing where
  state : SubState
  base : Addr
  size : Nat
  producer : Nat
  fetch : Nat
  port : Option PortId
  priority : Option (Fin 8)
  completion : Option CplId
  occupancy : Occupancy
  reading : Option FetchRead
  staged : Option Staged
  abortPending : Bool
  deriving DecidableEq, Repr

/-! ### Completion rings, receive rings and vectors (chapters 8 and 9) -/

/-- R134, R144: a completion in a posting queue; the phase and the timestamp are fixed when its write begins. -/
structure CplEntry where
  ring : SubId
  tag : BitVec 16
  tagAbsent : Bool
  release : Nat
  status : Status
  bytes : Nat
  attempts : Nat
  losses : Nat
  result : Word32
  deriving DecidableEq, Repr

/-- A DMA write in flight. -/
structure DmaWrite where
  address : Addr
  bytes : List Byte
  deriving DecidableEq, Repr

/-- R141, R157. -/
inductive RingState where
  | absent | active
  deriving DecidableEq, Repr

/-- R148. -/
inductive IrqState where
  | armed | counting | sent
  deriving DecidableEq, Repr

/-- R141: a ring's vector, coalescing parameters and interrupt state. -/
structure Irq where
  vector : VecId
  threshold : Nat
  delay : Nat
  state : IrqState
  count : Nat
  timer : Option Time
  deriving DecidableEq, Repr

/-- R141: a completion ring context. -/
structure CplRing where
  state : RingState
  base : Addr
  size : Nat
  tail : Nat
  consumer : Nat
  phase : Bool
  reserved : Nat
  queue : List CplEntry
  /-- the record write in flight for the entry at the head of the queue (R143) -/
  writing : Option DmaWrite
  irq : Irq
  deriving DecidableEq, Repr

/-- 9.3, 11.5: the kinds of receive record. -/
inductive RecordKind where
  | frame | queryWaiting | queryClosed | slotConsumed | slotWritten
  deriving DecidableEq, Repr

/-- R115: the close reasons. -/
inductive CloseReason where
  | expired | portStopped | withdrawn | busStuck
  deriving DecidableEq, Repr

/-- R161: a receive record in a posting queue; its phase and lost count are fixed when its write begins. -/
structure RcvEntry where
  kind : RecordKind
  port : PortId
  frameKind : FrameKind
  entry : MatchId
  source : Station
  channel : Byte
  length : Nat
  token : Option (BitVec 16)
  reason : Option CloseReason
  slot : Option SlotId
  timestamp : Time
  payload : List Byte
  deriving DecidableEq, Repr

/-- R157. -/
inductive FullPolicy where
  | refuseWhenFull | discardWhenFull
  deriving DecidableEq, Repr

/-- R157: a receive ring context. -/
structure RcvRing where
  state : RingState
  closing : Bool
  base : Addr
  size : Nat
  tail : Nat
  consumer : Nat
  phase : Bool
  held : Nat
  queue : List RcvEntry
  /-- the record write in flight for the entry at the head of the queue (R160) -/
  writing : Option DmaWrite
  policy : FullPolicy
  lost : Nat
  irq : Irq
  deriving DecidableEq, Repr

/-- R151: an interrupt vector. -/
structure IrqVector where
  address : Addr
  data : Word32
  masked : Bool
  pending : Bool
  deriving DecidableEq, Repr

/-- R152: an interrupt message write in flight, with the address and data its vector held when it was issued. -/
structure Message where
  vector : VecId
  address : Addr
  data : Word32
  deriving DecidableEq, Repr

/-! ### Health table, reply store, administration (chapters 4, 6 and 10) -/

/-- R68. -/
inductive HealthState where
  | suspect | barred | good
  deriving DecidableEq, Repr

/-- R68: a health entry. -/
structure HealthEntry where
  port : PortId
  station : Station
  state : HealthState
  failed : Nat
  deriving DecidableEq, Repr

/-- R102: a reply slot; it is LOADED or EMPTY, and its length is that of its data. -/
structure ReplySlot where
  loaded : Bool
  data : List Byte
  oneShot : Bool
  deriving DecidableEq, Repr

/-- R102: a snapshot area that is present. -/
structure Snapshot where
  slot : SlotId
  data : List Byte
  deriving DecidableEq, Repr

/-- R178, R179: where the administration command in progress stands. -/
inductive AdminPhase where
  /-- no command is in progress -/
  | idle
  /-- the staged command has not been taken yet -/
  | fresh
  /-- PORT_CONTROL STOP waits for the port to reach OFF (R34) -/
  | stopping (port : PortId)
  /-- PORT_CONTROL RECOVER waits for the recovery procedure to end (R39) -/
  | recovering (port : PortId)
  /-- ABORT waits for the found descriptor of a ring to complete, and then completes with the status (R67) -/
  | aborting (ring : SubId) (status : Status)
  /-- DELETE_SUBMISSION_RING waits for the ring to become ABSENT (R137) -/
  | deletingSub (ring : SubId)
  /-- DELETE_RECEIVE_RING waits for the ring's posting queue (R167) -/
  | deletingRcv (ring : RcvId)
  /-- the buffer write of READ_PORT_STATS is in flight (R41) -/
  | statsWrite (port : PortId) (clear : Bool) (snapshot : Stats) (write : DmaWrite)
  /-- the buffer write of READ_HEALTH is in flight, with the number of entries it holds (R79) -/
  | healthWrite (entries : Nat) (write : DmaWrite)
  /-- the buffer read of SET_REPLY is in flight (R103) -/
  | replyRead (slot : SlotId) (length : Nat) (oneShot : Bool) (buffer : Addr)
  deriving DecidableEq, Repr

/-- The whole state. `pending` is the queue of commands that wait, first in, first out; it is the model's own. -/
structure State where
  engine : EngineState
  cause : FailureCause
  notes : Notes
  setupAddress : Addr
  timeBase : Time
  setupRead : Option Addr
  admin : AdminPhase
  ports : Vector Port 4
  /-- R48: for each port and priority, the ring id most recently given a turn, or 0 -/
  roundRobin : Vector (Vector Nat 8) 4
  subs : Vector SubRing 32
  cpls : Vector CplRing 16
  rcvs : Vector RcvRing 16
  vectors : Vector IrqVector 16
  /-- interrupt message writes in flight, oldest first -/
  messages : List Message
  /-- R68: least recently touched first -/
  health : List HealthEntry
  entries : Vector MatchEntry 32
  replies : Vector ReplySlot 32
  snapshots : Vector (Option Snapshot) 4
  pending : List Instr
  deriving DecidableEq, Repr

/-! ### Reset values -/

/-- R32: the reset values of a port's configuration. -/
def PortConfig.reset : PortConfig :=
  { station := 0, rate := .k125, holdCeiling := 1000, answerLimit := 500, patience := 16, barThreshold := 3,
    stuckLimit := 25 }

/-- R40. -/
def Stats.reset : Stats :=
  { framesStarted := 0, arbitrationLost := 0, attemptsFailed := 0, framesServed := 0, inboundRefused := 0,
    framesBroken := 0, clashes := 0, stuckEvents := 0, healthUntracked := 0 }

/-- R22, R43. -/
def Port.reset : Port :=
  { state := .off, config := .reset, stopPending := false, bckDriver := .released, bdaDriver := .released,
    busView := .busy, idleSince := none, idleFull := false, bckLowSince := none, bdaLowSince := none,
    silenceSince := none, frame := none, stats := .reset, window := .none, nextToken := 0, recovery := none, leaving := false }

/-- R121. -/
def SubRing.reset : SubRing :=
  { state := .absent, base := 0, size := 0, producer := 0, fetch := 0, port := none, priority := none,
    completion := none, occupancy := .empty, reading := none, staged := none, abortPending := false }

/-- R141. -/
def Irq.reset : Irq :=
  { vector := 0, threshold := 1, delay := 0, state := .armed, count := 0, timer := none }

/-- R141. -/
def CplRing.reset : CplRing :=
  { state := .absent, base := 0, size := 0, tail := 0, consumer := 0, phase := true, reserved := 0, queue := [],
    writing := none, irq := .reset }

/-- R157. -/
def RcvRing.reset : RcvRing :=
  { state := .absent, closing := false, base := 0, size := 0, tail := 0, consumer := 0, phase := true, held := 0,
    queue := [], writing := none, policy := .refuseWhenFull, lost := 0, irq := .reset }

/-- R151. -/
def IrqVector.reset : IrqVector := { address := 0, data := 0, masked := true, pending := false }

/-- R83. -/
def MatchEntry.reset : MatchEntry :=
  { valid := false, ports := 0, kinds := 0, channelValue := 0, channelMask := 0, sourceValue := 0, sourceMask := 0,
    action := none, targetRing := 0, slot := 0, notifyRing := none, expiry := 0 }

/-- R102. -/
def ReplySlot.reset : ReplySlot := { loaded := false, data := [], oneShot := false }

/-- R183: the device right after power-on. -/
def State.reset : State :=
  { engine := .disabled, cause := .none,
    notes := { postRejected := false, ackRejected := false, cmdRejected := false },
    setupAddress := 0, timeBase := 0, setupRead := none, admin := .idle,
    ports := .replicate 4 .reset, roundRobin := .replicate 4 (.replicate 8 0), subs := .replicate 32 .reset,
    cpls := .replicate 16 .reset, rcvs := .replicate 16 .reset, vectors := .replicate 16 .reset, messages := [],
    health := [], entries := .replicate 32 .reset, replies := .replicate 32 .reset,
    snapshots := .replicate 4 none, pending := [] }

end Sys2Proof.Machine
end

