-- ==== Sys2Proof/Machine/Formats.lean ====
section
/-!
DEFINITION. The byte layouts of chapter 11: little-endian fields, the setup block, transfer and administration
descriptors as the device reads them, and the records, health records and statistics as the device writes them
(R185). Reading ignores reserved bytes and bits that no field names; writing writes them as 0.
-/
namespace Sys2Proof.Machine

/-! ### Little-endian fields -/

/-- The byte at an offset; a byte past the end of the data reads as 0 (notes/assumptions/4.md). -/
def byteAt (d : List Byte) (i : Nat) : Byte := d.getD i 0

def le16At (d : List Byte) (i : Nat) : BitVec 16 := byteAt d (i + 1) ++ byteAt d i

def le32At (d : List Byte) (i : Nat) : BitVec 32 := le16At d (i + 2) ++ le16At d i

def le64At (d : List Byte) (i : Nat) : BitVec 64 := le32At d (i + 4) ++ le32At d i

/-- The `n` low bytes of a value, lowest first. -/
def leBytes {w : Nat} (n : Nat) (v : BitVec w) : List Byte := (List.range n).map fun i => v.extractLsb' (8 * i) 8

/-- Exactly `n` bytes: longer data is cut, shorter data is filled with 0. -/
def fitTo (n : Nat) (d : List Byte) : List Byte := d.take n ++ List.replicate (n - d.length) 0

/-- A byte that holds a number below 256. -/
def byteOf (n : Nat) : Byte := BitVec.ofNat 8 n

/-- Bytes all 0. -/
def zeros (n : Nat) : List Byte := List.replicate n 0

/-! ### Code tables (11.5) -/

/-- The status codes of 11.5. -/
def Status.code : Status → Nat
  | .success => 0 | .truncated => 1 | .noTarget => 2 | .refused => 3 | .framing => 4 | .holdTimeout => 5 | .clash => 6
  | .expired => 7 | .arbExhausted => 8 | .busStuck => 9 | .portDown => 10 | .barred => 11 | .storeFault => 12
  | .aborted => 13 | .tooLate => 14 | .fetchFault => 15 | .badDescriptor => 16 | .badCommand => 17
  | .badParameter => 18 | .inUse => 19 | .notFound => 20 | .portBusy => 21

/-- The transfer kinds of 11.5. -/
def XferKind.ofCode (code : Byte) : Option XferKind :=
  match code.toNat with
  | 1 => some .marker | 2 => some .send | 3 => some .query | 4 => some .notice | 5 => some .answer
  | _ => none

/-- The frame kind code of a receive record (11.5, 11.7). -/
def FrameKind.code : FrameKind → Nat
  | .send => 2 | .query => 3 | .notice => 4

def RecordKind.code : RecordKind → Nat
  | .frame => 1 | .queryWaiting => 2 | .queryClosed => 3 | .slotConsumed => 4 | .slotWritten => 5

def CloseReason.code : CloseReason → Nat
  | .expired => 1 | .portStopped => 2 | .withdrawn => 3 | .busStuck => 4

def Action.ofCode (code : Nat) : Option Action :=
  match code with
  | 1 => some .deliver | 2 => some .replySlot | 3 => some .slotWrite | 4 => some .defer | 5 => some .refuse
  | _ => none

def Rate.ofCode (code : Nat) : Option Rate :=
  match code with
  | 0 => some .k125 | 1 => some .k250 | 2 => some .k500 | 3 => some .k1000
  | _ => none

def FullPolicy.ofCode (code : Nat) : Option FullPolicy :=
  match code with
  | 0 => some .refuseWhenFull | 1 => some .discardWhenFull
  | _ => none

/-- The expiry answer a DEFER entry's byte names; SET_MATCH admits only 0 and 1 there (R99). -/
def ExpiryAnswer.ofByte (b : Byte) : ExpiryAnswer := if b = 0 then .empty else .decline

def HealthState.code : HealthState → Nat
  | .suspect => 1 | .barred => 2 | .good => 3

/-! ### Structures the device reads -/

/-- 11.2: the setup block. -/
structure SetupBlock where
  adminBase : Addr
  adminSize : Nat
  completionBase : Addr
  completionSize : Nat
  vector : Nat
  threshold : Nat
  delay : Nat
  deriving DecidableEq, Repr

/-- 11.2. -/
def decodeSetup (d : List Byte) : SetupBlock :=
  { adminBase := le64At d 0x00, adminSize := (le16At d 0x08).toNat,
    completionBase := le64At d 0x10, completionSize := (le16At d 0x18).toNat,
    vector := (byteAt d 0x1A).toNat, threshold := (byteAt d 0x1B).toNat, delay := (le16At d 0x1C).toNat }

/-- The tag of a descriptor, at offset 0 (11.3, 11.4). -/
def tagOf (d : List Byte) : BitVec 16 := le16At d 0x00

/-- 11.3: a transfer descriptor; absent where its kind code is no transfer kind (R130). -/
def decodeXfer (d : List Byte) : Option Desc :=
  (XferKind.ofCode (byteAt d 0x02)).map fun kind =>
    { tag := tagOf d, kind, probe := (byteAt d 0x03).getLsbD 0, decline := (byteAt d 0x03).getLsbD 1,
      dest := (le16At d 0x04).setWidth 10, channel := byteAt d 0x06, outLength := (byteAt d 0x07).toNat,
      replyCapacity := (byteAt d 0x08).toNat, attemptLimit := ((byteAt d 0x09).setWidth 4).toNat,
      deadline := (le16At d 0x0A).toNat, token := le16At d 0x0C, outBuffer := le64At d 0x10,
      replyBuffer := le64At d 0x18 }

/-- 11.4: an administration descriptor's command and parameters. -/
def decodeAdmin (d : List Byte) : AdminCmd :=
  let b := fun i => (byteAt d i).toNat
  let h := fun i => (le16At d i).toNat
  match (byteAt d 0x02).toNat with
  | 0x10 => .createSubmissionRing (b 0x04) (b 0x05) (b 0x06) (b 0x07) (h 0x08) (le64At d 0x10)
  | 0x11 => .deleteSubmissionRing (b 0x04)
  | 0x12 => .createCompletionRing (b 0x04) (b 0x05) (b 0x06) (h 0x08) (h 0x0A) (le64At d 0x10)
  | 0x13 => .deleteCompletionRing (b 0x04)
  | 0x14 => .setVector (b 0x04) ((byteAt d 0x05).getLsbD 0) (le32At d 0x08) (le64At d 0x10)
  | 0x15 => .createReceiveRing (b 0x04) (b 0x05) (b 0x06) (b 0x07) (h 0x08) (h 0x0A) (le64At d 0x10)
  | 0x16 => .deleteReceiveRing (b 0x04)
  | 0x17 => .setPort (b 0x04) (b 0x05) (h 0x06) (h 0x08) (h 0x0A) (b 0x0C) (b 0x0D) (b 0x0E)
  | 0x18 => .portControl (b 0x04) (b 0x05)
  | 0x19 => .readPortStats (b 0x04) ((byteAt d 0x05).getLsbD 0) (le64At d 0x10)
  | 0x1A =>
    .setMatch (b 0x04) (b 0x05) ((byteAt d 0x06).setWidth 4) ((byteAt d 0x07).setWidth 3) (byteAt d 0x08)
      (byteAt d 0x09) (byteAt d 0x0A) (byteAt d 0x0B) (byteAt d 0x0C) ((byteAt d 0x0D).getLsbD 0) (byteAt d 0x0E)
      (h 0x10) (h 0x12)
  | 0x1B => .clearMatch (b 0x04)
  | 0x1C => .setReply (b 0x04) (b 0x05) ((byteAt d 0x06).getLsbD 0) (le64At d 0x10)
  | 0x1D => .clearReply (b 0x04)
  | 0x1E => .clearHealth (b 0x04) (b 0x05) (h 0x06)
  | 0x1F => .readHealth (le64At d 0x10)
  | 0x20 => .abort (b 0x04) (le16At d 0x06)
  | _ => .unknown (byteAt d 0x02)

/-! ### Structures the device writes (11.6, R185) -/

/-- The completion record of 32 bytes. -/
def completionRecord (e : CplEntry) (phase : Bool) (timestamp : Time) : List Byte :=
  leBytes 2 e.tag ++ [byteOf e.status.code, byteOf e.ring.val] ++ leBytes 2 (BitVec.ofNat 16 e.release) ++
    [byteOf e.bytes, (BitVec.ofNat 4 e.attempts).setWidth 8] ++ leBytes 4 e.result ++ leBytes 4 timestamp ++
    [byteOf e.losses] ++ zeros 14 ++
    [(BitVec.ofBool phase).setWidth 8 ||| ((BitVec.ofBool e.tagAbsent).setWidth 8 <<< 1)]

/-- The receive record of 96 bytes. -/
def receiveRecord (e : RcvEntry) (phase : Bool) (lost : Nat) : List Byte :=
  [byteOf e.kind.code, byteOf e.port.val, byteOf e.frameKind.code, byteOf e.entry.val] ++
    leBytes 2 (e.source.setWidth 16) ++ [e.channel, byteOf e.length] ++ leBytes 2 (e.token.getD 0) ++
    [byteOf ((e.reason.map CloseReason.code).getD 0), byteOf ((e.slot.map Fin.val).getD 0)] ++
    leBytes 2 (BitVec.ofNat 16 lost) ++ zeros 2 ++ leBytes 4 e.timestamp ++ zeros 11 ++
    [(BitVec.ofBool phase).setWidth 8] ++ fitTo 64 e.payload

/-- A READ_HEALTH record of 4 bytes. -/
def healthRecord (e : HealthEntry) : List Byte :=
  leBytes 2 (e.station.setWidth 16) ++ [byteOf e.port.val, byteOf (e.state.code + 16 * e.failed)]

/-- The READ_PORT_STATS buffer of 36 bytes. -/
def statsBytes (c : Stats) : List Byte :=
  [c.framesStarted, c.arbitrationLost, c.attemptsFailed, c.framesServed, c.inboundRefused, c.framesBroken, c.clashes,
    c.stuckEvents, c.healthUntracked].flatMap (leBytes 4)

end Sys2Proof.Machine
end

