-- ==== Sys2Proof/Machine/Operands.lean ====
section
/-!
DEFINITION. The operand forms of the commands: the fields of written register words (11.1), numbers that name a
ring, port, slot or entry, slot readings (R12), and the bus header (R8, R9, 11.7).
-/
namespace Sys2Proof.Machine

/-! ### Register words (11.1) -/

/-- POST, bits 4:0. -/
def postRing (w : Word32) : SubId := (w.extractLsb' 0 5).toFin
/-- POST, bits 27:16. -/
def postIndex (w : Word32) : Nat := (w.extractLsb' 16 12).toNat
/-- ACK, bits 3:0 and bit 31: the ring named. -/
def ackRing (w : Word32) : RingRef :=
  if w.getLsbD 31 then .receive (w.extractLsb' 0 4).toFin else .completion (w.extractLsb' 0 4).toFin
/-- ACK, bits 27:16. -/
def ackIndex (w : Word32) : Nat := (w.extractLsb' 16 12).toNat

/-- A number that names one of `n` things, where it is small enough. -/
def numbered (n : Nat) (i : Nat) : Option (Fin n) := if h : i < n then some ⟨i, h⟩ else none

/-- R136, R154, R166, R173: a ring size is a power of two from 8 to 4096. -/
def legalSize (n : Nat) : Bool :=
  n == 8 || n == 16 || n == 32 || n == 64 || n == 128 || n == 256 || n == 512 || n == 1024 || n == 2048 || n == 4096

/-- Whether an address is a multiple of `n`. -/
def alignedTo (n : Nat) (a : Addr) : Bool := a.toNat % n == 0

/-! ### Slots (R12) -/

/-- R12: the readings of an acknowledge slot. -/
inductive SlotReading where
  | accept | refuse | absent
  deriving DecidableEq, Repr

/-- R12, and R16 for the turnaround slot, whose REPLY reads as ACCEPT and whose DECLINE reads as REFUSE. -/
def readSlot (presence verdict : Level) : SlotReading :=
  match presence, verdict with
  | .dominant, .dominant => .accept
  | .dominant, .recessive => .refuse
  | .recessive, _ => .absent

/-- R4: the driver after a station has driven a bit, up to the next fall of BCK: a dominant bit (0) is kept low. -/
def driverOfBit (bit : Bool) : Driver := if bit then .released else .drivenLow

/-- 1.1: the level of a line that carries a bit. -/
def levelOfBit (bit : Bool) : Level := if bit then .recessive else .dominant

/-- The last bit of a byte on the wire, which is sent most significant bit first (R11). -/
def lastBit (b : Byte) : Bool := b.getLsbD 0

/-! ### The header (R8, R9, 11.7) -/

/-- The kind bits of the header on the wire. -/
def FrameKind.wire : FrameKind → BitVec 2
  | .send => 1 | .query => 2 | .notice => 3

/-- R8: whether the bits hold an odd number of ones, which is the check bit that makes their number even. -/
def parityBit {w : Nat} (v : BitVec w) : Bool := (List.range w).foldl (fun acc i => acc != v.getLsbD i) false

/-- R8, 11.7: the header with both check bits. -/
def buildHeader (kind : FrameKind) (dest source : Station) : Header :=
  let front : BitVec 12 := kind.wire ++ dest
  front ++ source ++ BitVec.ofBool (parityBit front) ++ BitVec.ofBool (parityBit source)

def Header.kind (h : Header) : BitVec 2 := h.extractLsb' 22 2
def Header.dest (h : Header) : Station := h.extractLsb' 12 10
def Header.source (h : Header) : Station := h.extractLsb' 2 10
def Header.check1 (h : Header) : Bool := h.getLsbD 1
def Header.check2 (h : Header) : Bool := h.getLsbD 0

/-- The frame kind of a header whose kind bits are not 00. -/
def Header.frameKind (h : Header) : FrameKind :=
  if Header.kind h = 1 then .send else if Header.kind h = 2 then .query else .notice

/-- R9: the judgements of a header. -/
inductive Judgement where
  | ignored
  | addressed (kind : FrameKind)
  | broadcast
  | other
  deriving DecidableEq, Repr

/-- R8: both check bits are right. -/
def Header.checksRight (h : Header) : Bool :=
  parityBit (h.extractLsb' 12 12) == Header.check1 h && parityBit (Header.source h) == Header.check2 h

/-- R9: the judgement by a port whose configured station is `station`. -/
def judge (h : Header) (station : Station) : Judgement :=
  let kind := Header.frameKind h
  if !Header.checksRight h || Header.kind h == 0 then .ignored
  else if kind != .notice && Header.dest h == Config.broadcast then .ignored
  else if Header.source h == Config.broadcast then .ignored
  else if Header.dest h == station then .addressed kind
  else if kind == .notice && Header.dest h == Config.broadcast then .broadcast
  else .other

/-- R10: the header a port takes when it has sampled the first `n` bits of it itself and reads the rest from the
wire. -/
def completeHeader (sampled : Header) (n : Nat) (wire : Header) : Header :=
  let top : Header := BitVec.allOnes 24 <<< (24 - n)
  (sampled &&& top) ||| (wire &&& ~~~top)

/-- Header bit `n` counted from the first on the wire (bit 23). -/
def headerBit (h : Header) (n : Fin 24) : Bool := h.getMsbD n.val

/-- The frame kind of a transfer kind that opens frames. -/
def XferKind.frameKind : XferKind → FrameKind
  | .query => .query
  | .notice => .notice
  | .marker | .send | .answer => .send

/-- R51: the header a port sends for a descriptor. -/
def headerFor (d : Desc) (station : Station) : Header :=
  buildHeader d.kind.frameKind (if d.kind = .notice then Config.broadcast else d.dest) station

/-! ### Time (R177) -/

/-- The time base when a timed happening is taken: the happening's moment `due` where the time base has not reached it
yet, otherwise the time base as it is (notes/assumptions/6.md). -/
def reach (now due : Time) : Time := if (now - due).msb then due else now

/-- R3: one bit time in µs. -/
def Rate.bitTime : Rate → Nat
  | .k125 => 8 | .k250 => 4 | .k500 => 2 | .k1000 => 1

/-- A number of microseconds on the time base. -/
def micros (n : Nat) : Time := BitVec.ofNat 32 n

/-- The moment from which a line counts as low at a sample of its level (R21). -/
def lowFrom (level : Level) (now : Time) : Option Time := if level = .dominant then some now else none

/-- The moment `n` µs after a measure began, where it counts. -/
def dueAfter (start : Option Time) (n : Nat) (now : Time) : Time :=
  match start with
  | some t => reach now (t + micros n)
  | none => now

end Sys2Proof.Machine
end

