-- ==== Sys2Proof/Machine/Flags.lean ====
section
/-!
DEFINITION. Every flag and counter computation: the engine word's notes (R176), the port statistics (R40), the
saturating counts, and the interrupt state of a ring's coalescing (R148 to R150).
-/
namespace Sys2Proof.Machine

/-! ### Notes (R176, 11.1) -/

/-- CLEAR_NOTES: the selected notes are cleared, the others keep their value. -/
def Notes.clear (n : Notes) (selection : BitVec 3) : Notes :=
  { postRejected := n.postRejected && !selection.getLsbD 0,
    ackRejected := n.ackRejected && !selection.getLsbD 1,
    cmdRejected := n.cmdRejected && !selection.getLsbD 2 }

/-! ### Port statistics (R40): 32-bit counters that wrap -/

/-- R40: the counters by name. -/
inductive Counter where
  | framesStarted | arbitrationLost | attemptsFailed | framesServed | inboundRefused | framesBroken | clashes
  | stuckEvents | healthUntracked
  deriving DecidableEq, Repr

def Stats.count (c : Stats) : Counter → Stats
  | .framesStarted => { c with framesStarted := c.framesStarted + 1 }
  | .arbitrationLost => { c with arbitrationLost := c.arbitrationLost + 1 }
  | .attemptsFailed => { c with attemptsFailed := c.attemptsFailed + 1 }
  | .framesServed => { c with framesServed := c.framesServed + 1 }
  | .inboundRefused => { c with inboundRefused := c.inboundRefused + 1 }
  | .framesBroken => { c with framesBroken := c.framesBroken + 1 }
  | .clashes => { c with clashes := c.clashes + 1 }
  | .stuckEvents => { c with stuckEvents := c.stuckEvents + 1 }
  | .healthUntracked => { c with healthUntracked := c.healthUntracked + 1 }

/-- R41: the snapshot is subtracted, modulo 2^32. -/
def Stats.less (c snapshot : Stats) : Stats :=
  { framesStarted := c.framesStarted - snapshot.framesStarted,
    arbitrationLost := c.arbitrationLost - snapshot.arbitrationLost,
    attemptsFailed := c.attemptsFailed - snapshot.attemptsFailed,
    framesServed := c.framesServed - snapshot.framesServed,
    inboundRefused := c.inboundRefused - snapshot.inboundRefused,
    framesBroken := c.framesBroken - snapshot.framesBroken,
    clashes := c.clashes - snapshot.clashes,
    stuckEvents := c.stuckEvents - snapshot.stuckEvents,
    healthUntracked := c.healthUntracked - snapshot.healthUntracked }

/-- A count that stays at its maximum (spec/00_scope.md, "Counts and saturation"). -/
def saturate (cap n : Nat) : Nat := if n < cap then n + 1 else cap

/-! ### Attempt results -/

/-- R53: the failed attempts. -/
def AttemptResult.failed : AttemptResult → Bool
  | .noTarget | .refused | .framing | .holdTimeout | .clash => true
  | .busStuck | .success | .truncated => false

/-- R53, R55: the status of a descriptor that completes with an attempt's result. -/
def AttemptResult.status : AttemptResult → Status
  | .noTarget => .noTarget | .refused => .refused | .framing => .framing | .holdTimeout => .holdTimeout
  | .clash => .clash | .busStuck => .busStuck | .success => .success | .truncated => .truncated

/-! ### Coalescing (R148 to R150). The Bool says that a message is sent on the ring's vector. -/

/-- R149: the message is sent, the count becomes 0, the timer absent and the state SENT. -/
def Irq.fire (q : Irq) : Irq := { q with state := .sent, count := 0, timer := none }

/-- R148: a record is posted. -/
def Irq.posted (q : Irq) (now : Time) : Irq × Bool :=
  match q.state with
  | .armed =>
    if q.threshold = 1 then (q.fire, true)
    else ({ q with state := .counting, count := 1, timer := if q.delay = 0 then none else some (now + micros q.delay) },
      false)
  | .counting => if q.count + 1 = q.threshold then (q.fire, true) else ({ q with count := q.count + 1 }, false)
  | .sent => (q, false)

/-- R148, R150: an ACK is taken; `left` says whether it leaves unconsumed records. -/
def Irq.acked (q : Irq) (left : Bool) : Irq × Bool :=
  match q.state, left with
  | .armed, _ => (q, false)
  | .counting, true => (q, false)
  | .counting, false => ({ q with state := .armed, count := 0, timer := none }, false)
  | .sent, true => (q, true)
  | .sent, false => ({ q with state := .armed }, false)

end Sys2Proof.Machine
end

