-- ==== Sys2Proof/Machine/Ops.lean ====
section
/-!
DEFINITION. The shared operations over State: access to its numbered parts, ring arithmetic, the hand-over of
completions and receive records, interrupt messages, the health table, the schedulers, the ends of turns, attempts,
frames and services, the entry into FAILED, OFF and FAULTED, and the reads of the register window. The meanings of
the commands are written over these.
-/
namespace Sys2Proof.Machine

/-- What a meaning answers. -/
abbrev Answer := Host.Outcome State Fault Refusal

/-! ### Access to the numbered parts -/

def State.port (s : State) (p : PortId) : Port := s.ports[p]
def State.setPort (s : State) (p : PortId) (x : Port) : State := { s with ports := s.ports.set p x }
def State.sub (s : State) (r : SubId) : SubRing := s.subs[r]
def State.setSub (s : State) (r : SubId) (x : SubRing) : State := { s with subs := s.subs.set r x }
def State.cpl (s : State) (c : CplId) : CplRing := s.cpls[c]
def State.setCpl (s : State) (c : CplId) (x : CplRing) : State := { s with cpls := s.cpls.set c x }
def State.rcv (s : State) (r : RcvId) : RcvRing := s.rcvs[r]
def State.setRcv (s : State) (r : RcvId) (x : RcvRing) : State := { s with rcvs := s.rcvs.set r x }
def State.vector (s : State) (v : VecId) : IrqVector := s.vectors[v]
def State.setVector (s : State) (v : VecId) (x : IrqVector) : State := { s with vectors := s.vectors.set v x }
def State.entry (s : State) (i : MatchId) : MatchEntry := s.entries[i]
def State.setEntry (s : State) (i : MatchId) (x : MatchEntry) : State := { s with entries := s.entries.set i x }
def State.reply (s : State) (i : SlotId) : ReplySlot := s.replies[i]
def State.setReply (s : State) (i : SlotId) (x : ReplySlot) : State := { s with replies := s.replies.set i x }
def State.snapshot (s : State) (p : PortId) : Option Snapshot := s.snapshots[p]
def State.setSnapshot (s : State) (p : PortId) (x : Option Snapshot) : State :=
  { s with snapshots := s.snapshots.set p x }
/-- R48: the round-robin position of a port's scheduler for a priority. -/
def State.position (s : State) (p : PortId) (q : Fin 8) : Nat := s.roundRobin[p][q]
def State.setPosition (s : State) (p : PortId) (q : Fin 8) (n : Nat) : State :=
  { s with roundRobin := s.roundRobin.set p (s.roundRobin[p].set q n) }

/-- R170: the engine states in which the device works: RUNNING, HALTING and HALTED. -/
def State.live (s : State) : Bool :=
  match s.engine with
  | .running | .halting | .halted => true
  | .disabled | .starting | .failed => false

/-- R40: a port counts one in a statistic. -/
def State.count (s : State) (p : PortId) (c : Counter) : State :=
  s.setPort p { s.port p with stats := (s.port p).stats.count c }

/-! ### Ring arithmetic (R125, R141, R142, R157, R158) -/

/-- The slots from `start` up to, but not including, `stop`, counted upward with wrap. -/
def ringDistance (size stop start : Nat) : Nat := (stop + size - start) % size

/-- The next slot, with wrap. -/
def nextSlot (size i : Nat) : Nat := (i + 1) % size

/-- R143, R160: the phase flips when the tail wraps. -/
def nextPhase (size tail : Nat) (phase : Bool) : Bool := if nextSlot size tail = 0 then !phase else phase

/-- R125: the number of posted and unfetched slots. -/
def SubRing.posted (k : SubRing) : Nat := ringDistance k.size k.producer k.fetch
def CplRing.unconsumed (k : CplRing) : Nat := ringDistance k.size k.tail k.consumer
/-- R142. -/
def CplRing.free (k : CplRing) : Nat := k.size - 1 - k.unconsumed - k.reserved
def RcvRing.unconsumed (k : RcvRing) : Nat := ringDistance k.size k.tail k.consumer
/-- R157: held reservations plus the entries of the posting queue. -/
def RcvRing.reserved (k : RcvRing) : Nat := k.held + k.queue.length
/-- R158. -/
def RcvRing.free (k : RcvRing) : Nat := k.size - 1 - k.unconsumed - k.reserved

/-! ### Interrupt messages (R151, R152) -/

/-- R151: a message is sent on a vector: issued, or kept pending where the vector is masked. -/
def State.sendMessage (s : State) (v : VecId) : State :=
  let x := s.vector v
  if x.masked then s.setVector v { x with pending := true }
  else { s with messages := s.messages ++ [{ vector := v, address := x.address, data := x.data }] }

/-- A message is sent where coalescing says so. -/
def State.sendIf (s : State) (send : Bool) (v : VecId) : State := if send then s.sendMessage v else s

/-! ### Staged descriptors and execution records (R44, R123) -/

/-- The staged transfer descriptor of a ring that is STAGED. -/
def State.stagedOf (s : State) (r : SubId) : Option StagedXfer :=
  match (s.sub r).occupancy, (s.sub r).staged with
  | .staged, some (.xfer x) => some x
  | _, _ => none

/-- The staged descriptor of a ring that is STAGED, with its execution record. -/
def State.execOf (s : State) (r : SubId) : Option (StagedXfer × ExecRec) :=
  (s.stagedOf r).bind fun x => x.exec.map fun e => (x, e)

def State.setExec (s : State) (r : SubId) (x : StagedXfer) (e : ExecRec) : State :=
  s.setSub r { s.sub r with staged := some (.xfer { x with exec := some e }) }

/-- R64: an abort is pending on the staged descriptor of a ring. -/
def State.abortPending (s : State) (r : SubId) : Bool := (s.sub r).abortPending

/-! ### Completions (R134, R61, R179) -/

/-- What the block that completes a descriptor or command hands to the ring manager. -/
structure Done where
  tag : BitVec 16
  status : Status
  tagAbsent : Bool := false
  bytes : Nat := 0
  attempts : Nat := 0
  losses : Nat := 0
  result : Word32 := 0

/-- R134: a completion joins the posting queue of the ring's completion ring, with the ring id and the release index,
and the ring becomes COMPLETING. Only a ring that is FETCHING or STAGED has a completion to give (R123). -/
def State.handOver (s : State) (r : SubId) (d : Done) : State :=
  let k := s.sub r
  match k.completion with
  | none => s
  | some c =>
    if k.occupancy = .fetching ∨ k.occupancy = .staged then
      let e : CplEntry :=
        { ring := r, tag := d.tag, tagAbsent := d.tagAbsent, release := k.fetch, status := d.status, bytes := d.bytes,
          attempts := d.attempts, losses := d.losses, result := d.result }
      (s.setSub r { k with occupancy := .completing, reading := none, abortPending := false }).setCpl c
        { s.cpl c with queue := (s.cpl c).queue ++ [e] }
    else s

/-- The tag of the administration command that ring 0 has staged. -/
def State.adminTag (s : State) : BitVec 16 :=
  match (s.sub 0).staged with
  | some (.admin tag _) => tag
  | _ => 0

/-- R179: the administration command in progress ends, and its completion is handed over. -/
def State.finishAdmin (s : State) (status : Status) (result : Word32 := 0) : State :=
  { s.handOver 0 { tag := s.adminTag, status, result } with admin := .idle }

/-- The completion of a descriptor, followed by that of the ABORT that waits for it (R67). -/
def State.complete (s : State) (r : SubId) (d : Done) : State :=
  let t := s.handOver r d
  match t.admin with
  | .aborting q status => if q = r then t.finishAdmin status else t
  | _ => t

/-! ### Health table (chapter 4) -/

def HealthEntry.names (e : HealthEntry) (p : PortId) (st : Station) : Bool := e.port == p && e.station == st

/-- R69: the entry for a port and station. -/
def State.healthEntry (s : State) (p : PortId) (st : Station) : Option HealthEntry :=
  s.health.find? (·.names p st)

/-- R71, R72: the state by the bar threshold of the entry's port. -/
def judged (failed threshold : Nat) : HealthState := if threshold ≤ failed then .barred else .suspect

/-- R71 to R73: a target failure. -/
def State.targetFailure (s : State) (p : PortId) (st : Station) : State :=
  let threshold := (s.port p).config.barThreshold
  match s.healthEntry p st with
  | some e =>
    let n := saturate Config.countCap e.failed
    { s with health := s.health.filter (fun x => !x.names p st) ++ [{ e with state := judged n threshold, failed := n }] }
  | none =>
    let fresh : HealthEntry := { port := p, station := st, state := judged 1 threshold, failed := 1 }
    if s.health.length < Config.healthCapacity then { s with health := s.health ++ [fresh] }
    else if s.health.any (·.state == .good) then { s with health := s.health.eraseP (·.state == .good) ++ [fresh] }
    else s.count p .healthUntracked

/-- R74: a target success. -/
def State.targetSuccess (s : State) (p : PortId) (st : Station) : State :=
  match s.healthEntry p st with
  | some e => { s with health := s.health.filter (fun x => !x.names p st) ++ [{ e with state := .good, failed := 0 }] }
  | none => s

/-- R62: the outcome a completion status hands to the health table, for SEND and QUERY descriptors. The entry of a target
that has become the port's own station is not updated (R76, notes/assumptions/33.md). -/
def State.tellHealth (s : State) (p : PortId) (d : Desc) (status : Status) : State :=
  if (d.kind = .send ∨ d.kind = .query) ∧ d.dest ≠ (s.port p).config.station then
    match status with
    | .noTarget | .refused | .holdTimeout | .framing => s.targetFailure p d.dest
    | .success | .truncated => s.targetSuccess p d.dest
    | _ => s
  else s

/-- R61, R62: a SEND, QUERY or NOTICE descriptor completes: first the health table's outcome, then the completion
with the record's counts. -/
def State.completeExec (s : State) (r : SubId) (status : Status) (bytes : Nat) : State :=
  match s.execOf r, (s.sub r).port with
  | some (x, e), some p =>
    (s.tellHealth p x.desc status).complete r
      { tag := x.desc.tag, status, bytes, attempts := e.attempts, losses := e.losses }
  | _, _ => s

/-- An ANSWER completes: attempts used and losses are 0 (R113, R114). -/
def State.completeAnswer (s : State) (r : SubId) (status : Status) (bytes : Nat) : State :=
  match s.stagedOf r with
  | some x => s.complete r { tag := x.desc.tag, status, bytes }
  | none => s

/-! ### First consideration and the schedulers (3.2, 3.3) -/

/-- R45 from step 3 on: the health check decides between BARRED and ELIGIBLE with an effective limit. -/
def State.healthCheck (s : State) (r : SubId) (p : PortId) (x : StagedXfer) (e : ExecRec) : State :=
  let own := s.setExec r x { e with state := .eligible, limit := x.desc.attemptLimit }
  if x.desc.kind = .notice then own
  else
    match (s.healthEntry p x.desc.dest).map HealthEntry.state with
    | some .barred => if x.desc.probe then own else s.completeExec r .barred e.lastBytes
    | some .suspect => s.setExec r x { e with state := .eligible, limit := 1 }
    | some .good | none => own

/-- R45: first consideration. -/
def State.consider (s : State) (r : SubId) : State :=
  match (s.sub r).port, s.execOf r with
  | some p, some (x, e) =>
    match (s.port p).state with
    | .off | .faulted => s.completeExec r .portDown e.lastBytes
    | .recovering => s.setExec r x { e with state := .held }
    | _ => s.healthCheck r p x e
  | _, _ => s

/-- Whether a ring is bound to the port and its staged descriptor is in an execution state. -/
def State.inState (s : State) (p : PortId) (r : SubId) (q : ExecState) : Bool :=
  (s.sub r).port == some p && (s.execOf r).any (fun xe => xe.2.state == q)

/-- The submission rings in increasing ring id. -/
def allSubs : List SubId := List.finRange 32

/-- R46: every HELD descriptor of the port completes the checks of R45 from step 3, in increasing ring id. -/
def State.recheckHeld (s : State) (p : PortId) : State :=
  allSubs.foldl (fun t r =>
    if t.inState p r .held then
      match t.execOf r with
      | some (x, e) => t.healthCheck r p x e
      | none => t
    else t) s

/-- R47: every ELIGIBLE and every HELD descriptor of the port completes PORT_DOWN, in increasing ring id. -/
def State.portDown (s : State) (p : PortId) : State :=
  allSubs.foldl (fun t r =>
    if t.inState p r .eligible || t.inState p r .held then
      match t.execOf r with
      | some (_, e) => t.completeExec r .portDown e.lastBytes
      | none => t
    else t) s

/-- R48: the eligible set of a port, in increasing ring id. -/
def State.eligible (s : State) (p : PortId) : List SubId := allSubs.filter fun r => s.inState p r .eligible

/-- The priority of a ring. -/
def State.priorityOf (s : State) (r : SubId) : Fin 8 := (s.sub r).priority.getD 0

/-- R50: the highest priority held by any member of the eligible set. -/
def State.topPriority (s : State) (p : PortId) : Fin 8 :=
  (s.eligible p).foldl (fun q r => if q < s.priorityOf r then s.priorityOf r else q) 0

/-- R50: the scheduler's choice. -/
def State.pick (s : State) (p : PortId) : Option SubId :=
  let top := s.topPriority p
  let group := (s.eligible p).filter fun r => s.priorityOf r == top
  (group.find? fun r => s.position p top < r.val) <|> group.head?

/-! ### Receive rings: claims and hand-over (9.2, 9.3) -/

/-- R158: the answers to a request for a slot. -/
inductive ClaimAnswer where
  | granted | full | absent
  deriving DecidableEq, Repr

def RcvRing.answer (k : RcvRing) : ClaimAnswer :=
  if k.state = .absent ∨ k.closing then .absent else if 0 < k.free then .granted else .full

/-- R158: a reservation at a header verdict. -/
def State.reserve (s : State) (r : RcvId) : State := s.setRcv r { s.rcv r with held := (s.rcv r).held + 1 }

/-- R159: a held reservation is released without any record. -/
def State.release (s : State) (res : Option RcvId) : State :=
  match res with
  | some r => s.setRcv r { s.rcv r with held := (s.rcv r).held - 1 }
  | none => s

/-- R159, R160: a held reservation turns into an entry of the posting queue. -/
def State.handRecord (s : State) (r : RcvId) (e : RcvEntry) : State :=
  let k := s.rcv r
  if k.held = 0 then s else s.setRcv r { k with held := k.held - 1, queue := k.queue ++ [e] }

/-- R163: the ring counts one lost record. -/
def State.countLost (s : State) (r : RcvId) : State :=
  s.setRcv r { s.rcv r with lost := saturate Config.lostCap (s.rcv r).lost }

/-- R158, R106, R115: a claim at posting by a slot note or a QUERY_CLOSED. -/
def State.claimAtPosting (s : State) (r : RcvId) (e : RcvEntry) : State :=
  match (s.rcv r).answer with
  | .granted => s.setRcv r { s.rcv r with queue := (s.rcv r).queue ++ [e] }
  | .full => s.countLost r
  | .absent => s

/-- The receive ring a byte names, as DELIVER, DEFER and notify fields do. -/
def ringOfByte (b : Byte) : RcvId := (b.setWidth 4).toFin
/-- The reply slot a byte names. -/
def slotOfByte (b : Byte) : SlotId := (b.setWidth 5).toFin

/-- R106: a slot note is posted to the notify ring of the entry that hit, where it names one. -/
def State.slotNote (s : State) (p : PortId) (kind : RecordKind) (h : Candidate) (f : FrameRec) (length : Nat) : State :=
  match h.entry.notifyRing with
  | none => s
  | some b =>
    s.claimAtPosting (ringOfByte b)
      { kind, port := p, frameKind := Header.frameKind f.rxHeader, entry := h.index,
        source := Header.source f.rxHeader, channel := f.channel.getD 0, length, token := none, reason := none,
        slot := some (slotOfByte h.entry.slot), timestamp := s.timeBase, payload := [] }

/-- R115: a QUERY_CLOSED record is posted for a query. -/
def State.queryClosed (s : State) (p : PortId) (q : QueryDetails) (reason : CloseReason) : State :=
  s.claimAtPosting q.ring
    { kind := .queryClosed, port := p, frameKind := .query, entry := q.entry, source := q.source, channel := q.channel,
      length := q.length, token := some q.token, reason := some reason, slot := none, timestamp := s.timeBase,
      payload := [] }

/-- The service record of a port's frame. -/
def Port.service (x : Port) : Option ServiceRec := x.frame.bind (·.service)

def Port.setService (x : Port) (v : ServiceRec) : Port :=
  { x with frame := x.frame.map fun f => { f with service := some v } }

/-- R168: a deletion cancels the reservation a service record holds in the ring. -/
def Port.cancelReservation (r : RcvId) (x : Port) : Port :=
  match x.service with
  | some v => if v.reservation = some r then x.setService { v with reservation := none } else x
  | none => x

/-- R168: no lost count of a ring that has become ABSENT reaches a later ring of the same id: a service record that
discards for the ring counts for no ring any more. -/
def Port.forgetDiscard (r : RcvId) (x : Port) : Port :=
  match x.service with
  | some v =>
    if v.discard && (v.hit.map fun h => ringOfByte h.entry.targetRing) == some r then x.setService { v with discard := false }
    else x
  | none => x

/-- R167: a receive ring becomes ABSENT, and its context takes its reset values. -/
def State.dropRcv (s : State) (r : RcvId) : State :=
  { s.setRcv r .reset with ports := s.ports.map (Port.forgetDiscard r) }

/-! ### Ports: OFF, IDLE and the engine's failure (R22, R34, R42) -/

/-- R34: going to OFF discards the frame record, makes the bus view BUSY, ends the measures and releases both drivers;
the answer window is NONE and stop pending is cleared. -/
def Port.goOff (x : Port) : Port :=
  { x with state := .off, stopPending := false, bckDriver := .released, bdaDriver := .released, busView := .busy,
           idleSince := none, idleFull := false, bckLowSince := none, bdaLowSince := none, silenceSince := none,
           frame := none, window := .none, recovery := none, leaving := false }

/-- A frame ends for a port: it discards its frame record and goes to IDLE with bus view BUSY; `idle` says from when
the idle time counts, or that it is held at 0 (R6, R20). -/
def Port.toIdle (x : Port) (idle : Option Time) : Port :=
  { x with state := .idle, bckDriver := .released, bdaDriver := .released, busView := .busy, idleSince := idle,
           idleFull := false, bckLowSince := none, bdaLowSince := none, silenceSince := none, frame := none, recovery := none }

/-- R20, R21: a frame ends or breaks for a port at `now`. With both lines high the idle time counts from then; where BDA is
low the idle time is held at 0, and `low` says from when BDA's low time counts. -/
def Port.endFrame (x : Port) (now : Time) (low : Option Time) : Port :=
  { x.toIdle (if low.isSome then none else some now) with bdaLowSince := low }

/-- R3: half a bit time, in whole µs (notes/assumptions/7.md). -/
def Port.halfBit (x : Port) : Time := micros (x.config.rate.bitTime / 2)

/-- R21: BCK falls at `t`: its low time starts, and the low time of a BDA that is low starts anew. -/
def Port.bckFalls (x : Port) (t : Time) : Port :=
  { x with bckLowSince := some t, bdaLowSince := x.bdaLowSince.map fun _ => t }

/-- R21: BCK has been low since `t`: no low time of BDA counts from before that fall. -/
def Port.bckLowFrom (x : Port) (t : Time) : Port :=
  { x with bckLowSince := some t, bdaLowSince := x.bdaLowSince.map fun u => reach u t }

/-- R38: a quarter of a bit time, in whole µs: 2 at 125 kbit/s, 1 at 250 and 0 at 500 and 1000 kbit/s
(notes/assumptions/7.md). -/
def Port.quarterBit (x : Port) : Time := micros (x.config.rate.bitTime / 4)

/-- R37: the first pulse of a recovery begins at `now`: the port pulls BCK low and releases it half a bit time later. -/
def Port.firstPulse (x : Port) (now : Time) : Recovery := { phase := .clocking, pulses := 0, waitSince := now + x.halfBit }

/-- R36, R37, R39: the recovery procedure starts from its beginning. Where BCK is low its wait for BCK counts from then;
otherwise the first pulse begins, and BCK falls by the port's own pull. The low times of the lines go on (R21). -/
def Port.toRecovering (x : Port) (now : Time) : Port :=
  let y := if x.bckLowSince.isSome then x else x.bckFalls now
  { x.toIdle none with
    state := .recovering, bckLowSince := y.bckLowSince, bdaLowSince := y.bdaLowSince,
    recovery := some (if x.bckLowSince.isSome then { phase := .waiting, pulses := 0, waitSince := now } else x.firstPulse now) }

/-- R38: recovery has failed. The low times of the lines go on (R21). -/
def Port.toFaulted (x : Port) : Port :=
  { x.toIdle none with state := .faulted, bckLowSince := x.bckLowSince, bdaLowSince := x.bdaLowSince }

/-- R2, R12: the last bit of the byte or slot at a position. The header is three bytes. -/
def Position.lastBit : Position → Nat
  | .headerSlot | .byteSlot _ | .turnaround | .replySlot _ => 1
  | .opening | .header _ | .channelByte | .lengthByte | .byte _ | .replyLength | .replyByte _ | .closing | .done | .refused
  | .following => 7

/-- The last bit of the byte or slot that a port's frame is in. -/
def Port.endBit (x : Port) : Nat := (x.frame.map fun f => f.position.lastBit).getD 7

/-- R3, R21: BCK's fall that began the bit `bit`, in which BCK is low until `now`: the fall from which its low time counts, or
else half a bit time before. A low time that counts from an earlier bit, in which HOLD found BCK low, is not of this bit
(notes/assumptions/7.md). -/
def Port.lastFall (x : Port) (now : Time) (bit : Nat := x.endBit) : Time :=
  match x.bckLowSince with
  | some t => if x.frame.any fun f => f.held && f.bit != bit then now - x.halfBit else t
  | none => now - x.halfBit

/-- R21: from when a BDA that is low at `now` counts, in a bit in which BCK is low until then: from BCK's fall, or from BDA's
own fall where it is known to be later. -/
def Port.bdaLowAt (x : Port) (now : Time) (bit : Nat := x.endBit) : Time :=
  match x.bdaLowSince with
  | some t => reach t (x.lastFall now bit)
  | none => x.lastFall now bit

/-- R20, R21: BCK rises at `now` in the bit `bit`, which BDA carries at level `last`: the silence time starts, and BDA's low
time counts where it is low. -/
def Port.clocked (x : Port) (now : Time) (last : Level) (bit : Nat := x.endBit) : Port :=
  { x with bckLowSince := none, silenceSince := some now, bdaLowSince := lowFrom last (x.bdaLowAt now bit) }

/-- R29: the port follows a frame it takes no part in. -/
def Port.toObserving (x : Port) (f : FrameRec) : Port :=
  { x with state := .observing, bckDriver := .released, bdaDriver := .released, busView := .busy, idleSince := none,
           idleFull := false, frame := some { f with role := .observer, turn := none, service := none }, recovery := none }

/-- R42: whether a port has a byte, a slot or a closing of its frame in progress, to whose end it drives on after the engine
has failed: in ARBITRATING, INITIATING and SERVING, but for an initiator that waits out a hold, and for a port that has been
given a descriptor and has not yet made its opening (notes/assumptions/16.md). -/
def Port.drivesOn (x : Port) : Bool :=
  match x.state, x.frame with
  | .arbitrating, some f | .initiating, some f | .serving, some f => f.holdSince.isNone && f.position != .opening
  | _, _ => false

/-- R42: a port leaves what it is doing on entry of the engine into FAILED: it is `leaving` while it drives on to the end of
its byte, slot or closing, and otherwise OFF at once. -/
def Port.leave (x : Port) : Port :=
  if x.drivesOn then { x with leaving := true, stopPending := false, window := .none } else x.goOff

/-- R180: the entry into FAILED. -/
def State.fail (s : State) (cause : FailureCause) : State :=
  { s with engine := .failed, cause, setupRead := none, admin := .idle, ports := s.ports.map Port.leave }

/-- R42: a port that has driven on after the engine's failure releases both lines without a closing and goes OFF. -/
def State.leavesFrame (s : State) (p : PortId) : State := (s.setPort p (s.port p).goOff).setSnapshot p none

/-- A happening at a port. While the device works it acts on it as `act` says (R170). A port that drives on after the
engine's failure (R42) meets it as `leaves` says, and every other port then does not act. -/
def State.atPort (s : State) (p : PortId) (act leaves : Port → State) : State :=
  if s.live then act (s.port p)
  else if (s.port p).leaving then leaves (s.port p)
  else s

/-- R61, R134, R179: where a ring's completion stands among those of one happening: by ring id, and that of the
administration command that has caused them last. -/
def handOverRank (r : SubId) : Nat := if r = 0 then 32 else r.val

/-- R61, R134: what one happening has handed to a posting queue, which held `n` entries before it, joins the queue in
increasing ring id. -/
def CplRing.inRingOrder (k : CplRing) (n : Nat) : CplRing :=
  { k with
    queue := k.queue.take n ++ (k.queue.drop n).insertionSort fun a b => handOverRank a.ring ≤ handOverRank b.ring }

/-- R61, R134: the completions of a happening that began in `before`, in increasing ring id. -/
def State.inRingOrder (s before : State) : State :=
  { s with cpls := Vector.ofFn fun c => (s.cpl c).inRingOrder (before.cpl c).queue.length }

/-- A port enters OFF through a stop (R34, R35, R47). -/
def State.enterOff (s : State) (p : PortId) : State :=
  let t := ((s.setPort p (s.port p).goOff).setSnapshot p none).portDown p
  if t.admin = .stopping p then t.finishAdmin .success else t

/-- R35: a port with stop pending that has reached OBSERVING or IDLE goes straight on to OFF. What this completes and what
the happening that began in `before` has completed are handed over together (R134). -/
def State.settleStop (s : State) (p : PortId) (before : State) : State :=
  let x := s.port p
  if s.live ∧ x.stopPending ∧ (x.state = .observing ∨ x.state = .idle) then (s.enterOff p).inRingOrder before else s

/-- R174: the engine goes from HALTING to HALTED once no port is ARBITRATING or INITIATING and submission ring 0 is
EMPTY. -/
def State.settleHalt (s : State) : State :=
  if s.engine = .halting ∧ s.ports.all (fun x => x.state != .arbitrating && x.state != .initiating) ∧
      (s.sub 0).occupancy = .empty then { s with engine := .halted }
  else s

/-- What a happening at a port may bring about at its end: the stop that was pending, and HALTED. -/
def State.settle (s : State) (p : PortId) (before : State) : State := (s.settleStop p before).settleHalt

/-- A new frame record, of a receiver that has sampled no header bit (R5). -/
def FrameRec.fresh : FrameRec :=
  { role := .observer, position := .header 0, bit := 0, rxHeader := 0, channel := none, length := none, replyLength := none,
    turn := none, moved := 0, result := none, holdSince := none, held := false, givenUp := false, refusing := false, service := none,
    reply := [], accepted := 0, overridden := false }

/-- The frame goes on at a port, at the rise of BCK in the last bit of a byte or slot, which BDA carries at level `last`:
its record changes, the next byte or slot begins, and a hold is over (notes/assumptions/17.md). -/
def State.setFrame (s : State) (p : PortId) (f : FrameRec) (last : Level) (bit : Nat := (s.port p).endBit) : State :=
  s.setPort p { (s.port p).clocked s.timeBase last bit with frame := some { f with bit := 0, holdSince := none } }

/-- R29: the port follows the frame from such a moment on. -/
def State.observeFrame (s : State) (p : PortId) (f : FrameRec) (last : Level) (bit : Nat := (s.port p).endBit) : State :=
  s.setPort p (((s.port p).clocked s.timeBase last bit).toObserving { f with bit := 0, holdSince := none })

/-- A port drives BDA from its last bit on (R4). -/
def State.driveBda (s : State) (p : PortId) (d : Driver) : State := s.setPort p { s.port p with bdaDriver := d }

/-! ### Ends of turns and attempts (R52 to R57, R65) -/

/-- A descriptor leaves IN_ATTEMPT with neither a loss nor an attempt, because another station's opening has forestalled its
own (R51) or the frame ended in the header (notes/assumptions/9.md): it is EXPIRED (R59) or ELIGIBLE again, and ABORTED
with an abort pending (notes/assumptions/35.md). -/
def State.returnTurn (s : State) (r : SubId) : State :=
  match s.execOf r with
  | none => s
  | some (x, e) =>
    if s.abortPending r then s.completeExec r .aborted e.lastBytes
    else if e.deadlinePassed then s.completeExec r .expired e.lastBytes
    else s.setExec r x { e with state := .eligible }

/-- R52: the descriptor's fate at an arbitration loss. -/
def State.loseTurn (s : State) (r : SubId) (patience : Nat) : State :=
  match s.execOf r with
  | none => s
  | some (x, e) =>
    let e1 := { e with losses := saturate 255 e.losses, state := .eligible }
    let t := s.setExec r x e1
    if s.abortPending r then t.completeExec r .aborted e.lastBytes
    else if e.deadlinePassed then t.completeExec r .expired e.lastBytes
    else if e1.losses = patience then t.completeExec r .arbExhausted e.lastBytes
    else t

/-- R54: the byte count of an attempt. -/
def bytesMoved (kind : XferKind) (res : AttemptResult) (moved : Nat) (replyArea : List Byte) : Nat :=
  if kind = .query then (if res = .success ∨ res = .truncated then replyArea.length else 0) else moved

/-- R53, R55, R56, R57, R65: an attempt ends with a result. An attempt that is closed at the point of a pending abort before
its sequence gives a result has none (R64); its last result stays (notes/assumptions/14.md). -/
def State.endAttempt (s : State) (r : SubId) (got : Option AttemptResult) (moved : Nat) : State :=
  match s.execOf r with
  | none => s
  | some (x, e) =>
    let res := got.getD .framing
    let n := bytesMoved x.desc.kind res moved e.replyArea
    let e1 := { e with attempts := saturate Config.countCap e.attempts, lastResult := some res, lastBytes := n }
    let t := s.setExec r x e1
    if res = .busStuck then t.completeExec r .busStuck n
    else if s.abortPending r then
      let kept := if x.desc.kind = .query then 0 else moved
      (s.setExec r x { e1 with lastResult := got <|> e.lastResult, lastBytes := kept }).completeExec r .aborted kept
    else if res.failed then
      if e.deadlinePassed then t.completeExec r .expired n
      else if e.limit ≠ 0 ∧ e.limit ≤ e1.attempts then t.completeExec r res.status n
      else s.setExec r x { e1 with state := .eligible }
    else if x.desc.kind = .query ∧ 1 ≤ n then s.setExec r x { e1 with state := .storing }
    else t.completeExec r res.status n

/-- R27, R65: a failed attempt is counted by the port unless an abort is pending on its descriptor. -/
def State.countFailed (s : State) (p : PortId) (r : SubId) (got : Option AttemptResult) : State :=
  if (got.getD .framing).failed ∧ s.abortPending r = false then s.count p .attemptsFailed else s

/-- R56: a stuck condition met in ARBITRATING ends the turn; the attempt count is unchanged. -/
def State.stickTurn (s : State) (r : SubId) : State :=
  match s.execOf r with
  | none => s
  | some (_, e) => s.completeExec r .busStuck e.lastBytes

/-! ### The target side: ends of service (R95 to R97, R114, R118, R119, R66) -/

/-- The target side drops the frame: a reservation is released, and an ANSWER whose reply is in progress completes
SUCCESS with the bytes accepted, followed by QUERY_CLOSED with the reason (R97, R118, R119). -/
def State.dropService (s : State) (p : PortId) (f : FrameRec) (reason : CloseReason) : State :=
  let t := s.release (f.service.bind (·.reservation))
  match (t.port p).window with
  | .replying q _ r =>
    ((t.setPort p { t.port p with window := .none }).completeAnswer r .success f.accepted).queryClosed p q reason
  | _ => t

/-- R95: the record of a DELIVER frame. -/
def frameRecord (p : PortId) (f : FrameRec) (v : ServiceRec) (h : Candidate) : RcvEntry :=
  { kind := .frame, port := p, frameKind := Header.frameKind f.rxHeader, entry := h.index,
    source := Header.source f.rxHeader, channel := f.channel.getD 0, length := v.expected, token := none,
    reason := none, slot := none, timestamp := v.verdictTime.getD 0, payload := v.received }

/-- R95, R114, R66: an accepted frame closes complete, and the result is handed on according to the hit. -/
def State.deliver (s : State) (p : PortId) (f : FrameRec) (v : ServiceRec) : State :=
  match v.hit, v.hit.bind (·.entry.action) with
  | some h, some .deliver =>
    match v.reservation with
    | some r => s.handRecord r (frameRecord p f v h)
    | none =>
      let r := ringOfByte h.entry.targetRing
      if v.discard ∧ (s.rcv r).state = .active then s.countLost r else s
  | some h, some .slotWrite =>
    let i := slotOfByte h.entry.slot
    (s.setReply i { s.reply i with loaded := true, data := v.received }).slotNote p .slotWritten h f v.received.length
  | _, some .defer =>
    match (s.port p).window with
    | .replying _ _ r =>
      let status : Status := if s.abortPending r then .aborted else .success
      (s.setPort p { s.port p with window := .none }).completeAnswer r status f.accepted
    | _ => s
  | _, _ => s

/-- R96, R118, R66: an accepted frame closes early. A closing that the port itself made for an ABORT ends the query
without a QUERY_CLOSED. -/
def State.endEarly (s : State) (p : PortId) (f : FrameRec) : State :=
  match (s.port p).window with
  | .replying _ _ r =>
    if f.position = .closing then
      (s.setPort p { s.port p with window := .none }).completeAnswer r .aborted f.accepted
    else s.dropService p f .withdrawn
  | _ => s.dropService p f .withdrawn

/-! ### Ring parameters -/

/-- R166, R154, R136: the parameters of a ring that a CREATE command checks. -/
def legalRing (size : Nat) (base : Addr) : Bool := legalSize size && alignedTo 64 base

/-! ### Register reads (R184, 11.1) -/

def EngineState.code : EngineState → Nat
  | .disabled => 0 | .starting => 1 | .running => 2 | .halting => 3 | .halted => 4 | .failed => 5

def FailureCause.code : FailureCause → Nat
  | .none => 0 | .setupFault => 1 | .setupInvalid => 2 | .adminFetchFault => 3 | .completionWriteFault => 4
  | .receiveWriteFault => 5 | .messageWriteFault => 6

/-- A read of ENGINE: bits 2:0 the state, bits 6:4 the cause, bits 8, 9 and 10 the notes. -/
def State.engineWord (s : State) : Word32 :=
  BitVec.ofNat 32 (s.engine.code + 16 * s.cause.code + 256 * s.notes.postRejected.toNat +
    512 * s.notes.ackRejected.toNat + 1024 * s.notes.cmdRejected.toNat)

/-- R184: what a read of word `word` (offset 4 * word) returns. A read changes nothing. -/
def State.readWord (s : State) (word : Fin 8) : Word32 :=
  match word.val with
  | 0 => Config.idWord
  | 1 => Config.capacityWord
  | 2 => s.engineWord
  | 3 => s.setupAddress.setWidth 32
  | 4 => (s.setupAddress >>> 32).setWidth 32
  | _ => 0

/-- R184: a read narrower than a word returns the addressed bytes of that same value, lowest first. -/
def State.readBytes (s : State) (word : Fin 8) (first count : Nat) : List Byte :=
  ((leBytes 4 (s.readWord word)).drop first).take count

/-! ### Line measures as R2 names them -/

/-- R2, R7: the idle time of a port in µs, 0 to the idle gap, where it stays. -/
def State.idleTime (s : State) (p : PortId) : Nat :=
  let x := s.port p
  match x.idleSince with
  | none => 0
  | some t =>
    let gap := Config.idleGapBits * x.config.rate.bitTime
    if x.idleFull then gap else min (s.timeBase - t).toNat gap

end Sys2Proof.Machine
end

