-- ==== Sys2Proof/WellFormed.lean ====
section
/-!
DEFINITION. Which commands are well formed: the checks on operands that the types of Sys2Proof/Syntax.lean leave
open. A command that is not well formed is not a happening of the device: `exec` is total on it all the same
(notes/assumptions/4.md says what it does).
-/
namespace Sys2Proof

/-- A DMA read that ends without a fault brings exactly as many bytes as were asked for. -/
def ReadEnd.hasLength (read : ReadEnd) (ok : Nat → Bool) : Bool :=
  match read with
  | .fault => true
  | .data bytes => ok bytes.length

/-- R171, 11.1: the command codes 1..5 are ENABLE, HALT, RESUME, CLEAR_NOTES and SOFT_RESET. -/
def isEngineCommandCode (code : BitVec 4) : Bool := 1 ≤ code.toNat && code.toNat ≤ 5

/-- R184: the writes that are ignored, namely a write that does not cover all four bytes, and a write to ID, CAPACITY
or offset 0x1C (words 0, 1 and 7). A write with no byte enabled covers fewer than four (notes/assumptions/37.md). -/
def isIgnoredWrite (word : Fin 8) (enables : BitVec 4) : Bool :=
  enables != 0xF || word == 0 || word == 1 || word == 7

/-- The well-formed commands. -/
def Instr.wellFormed : Instr → Bool
  | .unknownEngineCommand code => !isEngineCommandCode code
  | .ignoredRegisterWrite word enables _ => isIgnoredWrite word enables
  | .setupReadEnd read => read.hasLength (· == 64)
  | .slotReadEnd _ read => read.hasLength (· == 64)
  | .payloadReadEnd _ read => read.hasLength fun n => 1 ≤ n && n ≤ Config.maxLength
  | .setReplyReadEnd read => read.hasLength fun n => 1 ≤ n && n ≤ Config.maxLength
  | .powerOn | .pcieLinkReset | .functionLevelReset | .enable | .halt | .resume | .clearNotes _ | .softReset
  | .setupAddressWrite _ _ | .post _ | .ack _ | .fetchStart _ | .unknownCommand | .createSubmissionRing
  | .deleteSubmissionRing _ | .createCompletionRing | .deleteCompletionRing | .setVector | .createReceiveRing
  | .deleteReceiveRing | .setPort | .portControlStart _ _ | .portControlStop _ | .portControlRecover | .readPortStats
  | .statsWriteEnd _ | .setMatch | .clearMatch | .setReply | .clearReply | .clearHealth | .readHealth
  | .healthWriteEnd _ | .abort _ | .schedulerChoice _ _ | .opening _ | .arbitrationLoss _ _ | .headerJudgement _ _
  | .channelByte _ _ | .headerVerdict _ _ | .byteReceived _ _ | .acknowledgeSlot _ _ _ | .turnaroundSlot _ _ _
  | .replyLengthByte _ _ | .replyByte _ _ | .clash _ _ | .closing _ | .frameBroken _ _ | .frameSilence _ _ | .idleGap _
  | .holdCeilingPassed _ | .stuckCondition _ _ | .recoveryFailed _ _ | .answerTaken _ _
  | .answerLimitExpiry _ _  | .deadlineExpiry _ | .replyStoreEnd _ _ | .completionWriteStart _ | .completionWriteEnd _ _ | .receiveWriteStart _
  | .receiveWriteEnd _ _ | .coalescingTimer _ | .messageWriteEnd _ _ | .clockPulse _ _ | .lineGoesLow _ _ _
  | .hold _ _ | .overridden _ _ => true

end Sys2Proof
end

