-- ==== Sys2Proof/Machine/EngineControl.lean ====
section
/-!
DEFINITION. The meanings of the commands of engine control and the host link unit: resets, engine commands, register
writes and the end of the setup read (chapters 10 and 11).
-/
namespace Sys2Proof.Machine

/-- R182: every part takes its reset value; the setup address is kept. -/
def State.softReset (s : State) : State := { State.reset with setupAddress := s.setupAddress, pending := s.pending }

/-- R171: a rejected engine-word write sets CMD_REJECTED and changes nothing else. -/
def State.rejectCommand (s : State) : State := { s with notes := { s.notes with cmdRejected := true } }

/-- R183: every part of the device takes its reset value, and the setup address is 0. -/
def execPowerOn (s : State) : Answer := .next { State.reset with pending := s.pending }

/-- R182. -/
def execPcieLinkReset (s : State) : Answer := .next s.softReset

/-- R182. -/
def execFunctionLevelReset (s : State) : Answer := .next s.softReset

/-- R182, in any engine state. -/
def execSoftReset (s : State) : Answer := .next s.softReset

/-- R173, R171: ENABLE applies in DISABLED. -/
def execEnable (s : State) : Answer :=
  .next <|
    if s.engine = .disabled then
      if alignedTo 64 s.setupAddress then { s with engine := .starting, setupRead := some s.setupAddress }
      else s.fail .setupInvalid
    else s.rejectCommand

/-- R174, R171: HALT applies in RUNNING; HALTED follows at once where its condition holds. -/
def execHalt (s : State) : Answer :=
  .next <| if s.engine = .running then ({ s with engine := .halting } : State).settleHalt else s.rejectCommand

/-- R175, R171: RESUME applies in HALTING and HALTED. The fetches and choices it makes possible are steps of their own
(FETCH_START, SCHEDULER_CHOICE). -/
def execResume (s : State) : Answer :=
  .next <| if s.engine = .halting ∨ s.engine = .halted then { s with engine := .running } else s.rejectCommand

/-- R176, in every engine state. -/
def execClearNotes (selection : BitVec 3) (s : State) : Answer :=
  .next { s with notes := s.notes.clear selection }

/-- R171: a code that is none of the five commands is ignored and sets CMD_REJECTED. -/
def execUnknownEngineCommand (code : BitVec 4) (s : State) : Answer :=
  .next <| if isEngineCommandCode code then s else s.rejectCommand

/-- R172: the write replaces its half of the setup address, in any engine state. -/
def execSetupAddressWrite (high : Bool) (value : Word32) (s : State) : Answer :=
  .next
    { s with
      setupAddress :=
        if high then value ++ (s.setupAddress.setWidth 32 : Word32)
        else ((s.setupAddress >>> 32).setWidth 32 : Word32) ++ value }

/-- R124. -/
def execPost (word : Word32) (s : State) : Answer :=
  let r := postRing word
  let k := s.sub r
  .next <|
    if s.live ∧ k.state = .active ∧ postIndex word < k.size then s.setSub r { k with producer := postIndex word }
    else { s with notes := { s.notes with postRejected := true } }

/-- R146: whether a consumer index would pass the tail. -/
def passesTail (size tail consumer index : Nat) : Bool :=
  ringDistance size tail consumer < ringDistance size index consumer

/-- R146: the checks of an ACK for a ring's size, tail and consumer index. -/
def ackTaken (s : State) (state : RingState) (size tail consumer index : Nat) : Bool :=
  s.live && state == .active && index < size && !passesTail size tail consumer index

/-- R146. -/
def State.rejectAck (s : State) : State := { s with notes := { s.notes with ackRejected := true } }

/-- R146, R147, R148, R150, R165. -/
def execAck (word : Word32) (s : State) : Answer :=
  let i := ackIndex word
  .next <|
    match ackRing word with
    | .completion c =>
      let k := s.cpl c
      if ackTaken s k.state k.size k.tail k.consumer i then
        let k1 := { k with consumer := i }
        let q := k.irq.acked (0 < k1.unconsumed)
        (s.setCpl c { k1 with irq := q.1 }).sendIf q.2 k.irq.vector
      else s.rejectAck
    | .receive r =>
      let k := s.rcv r
      if ackTaken s k.state k.size k.tail k.consumer i then
        let k1 := { k with consumer := i }
        let q := k.irq.acked (0 < k1.unconsumed)
        (s.setRcv r { k1 with irq := q.1 }).sendIf q.2 k.irq.vector
      else s.rejectAck

/-- R184, R171, R172, R124, R146, 11.1: the command that a write of a register word is taken as: `enables` has a bit for each
byte that the write covers. A full write of ENGINE is judged by bits 3:0, and CLEAR_NOTES by bits 10:8 too. -/
def registerCommand (word : Fin 8) (enables : BitVec 4) (value : Word32) : Instr :=
  if enables ≠ 0xF then .ignoredRegisterWrite word enables value
  else
    match word with
    | 2 =>
      match (value.extractLsb' 0 4).toNat with
      | 1 => .enable
      | 2 => .halt
      | 3 => .resume
      | 4 => .clearNotes (value.extractLsb' 8 3)
      | 5 => .softReset
      | _ => .unknownEngineCommand (value.extractLsb' 0 4)
    | 3 => .setupAddressWrite false value
    | 4 => .setupAddressWrite true value
    | 5 => .post value
    | 6 => .ack value
    | 0 | 1 | 7 => .ignoredRegisterWrite word enables value

/-- R184: a write reaches the host link unit, where register accesses are taken one at a time in their order. -/
def State.writeRegister (s : State) (word : Fin 8) (enables : BitVec 4) (value : Word32) : State :=
  { s with pending := s.pending ++ [registerCommand word enables value] }

/-- R184: a write that is ignored sets no note and changes nothing. -/
def execIgnoredRegisterWrite (_word : Fin 8) (_enables : BitVec 4) (_value : Word32) (s : State) : Answer := .next s

/-- R173: the checks of the setup block's fields. -/
def SetupBlock.valid (b : SetupBlock) : Bool :=
  legalRing b.adminSize b.adminBase && legalRing b.completionSize b.completionBase && b.vector ≤ 15 &&
    1 ≤ b.threshold && b.threshold ≤ 255

/-- R154, R156: the context of a completion ring that has just been made. -/
def CplRing.made (base : Addr) (size : Nat) (vector : VecId) (threshold delay : Nat) : CplRing :=
  { CplRing.reset with
    state := .active, base, size, irq := { Irq.reset with vector, threshold, delay } }

/-- R173: the setup read ends: the one that STARTING waits for, not one that a reset has abandoned
(notes/assumptions/34.md). -/
def execSetupReadEnd (read : ReadEnd) (s : State) : Answer :=
  .next <|
    if s.engine = .starting ∧ s.setupRead.isSome then
      match read with
      | .fault => s.fail .setupFault
      | .data bytes =>
        let b := decodeSetup (fitTo 64 bytes)
        if b.valid then
          let t := s.setSub 0
            { SubRing.reset with state := .active, base := b.adminBase, size := b.adminSize, completion := some 0 }
          let t := t.setCpl 0
            (CplRing.made b.completionBase b.completionSize (Fin.ofNat 16 b.vector) b.threshold b.delay)
          { t with engine := .running, setupRead := none }
        else s.fail .setupInvalid
    else s

end Sys2Proof.Machine
end

