-- ==== Sys2Proof/Machine/Submission.lean ====
section
/-!
DEFINITION. The meanings of the commands of submission rings: fetch, slot and payload reads, the administration
commands that create, delete and abort, deadlines and reply stores (chapters 3, 7 and 10).
-/
namespace Sys2Proof.Machine

/-! ### The administration command in progress (R178) -/

/-- The staged command of ring 0, where it has not been taken yet and the device carries commands out. -/
def State.freshCmd (s : State) : Option AdminCmd :=
  if s.live ∧ s.admin = .fresh ∧ (s.sub 0).occupancy = .staged then
    match (s.sub 0).staged with
    | some (.admin _ c) => some c
    | _ => none
  else none

/-- R178: a transfer kind or an unknown code completes BAD_COMMAND at once, and no block is touched. -/
def execUnknownCommand (s : State) : Answer :=
  .next <|
    match s.freshCmd with
    | some (.unknown _) => s.finishAdmin .badCommand
    | _ => s

/-! ### Fetch (7.3, 7.4) -/

/-- R126: the host address of the slot that a fetch reads. -/
def SubRing.slotAddress (k : SubRing) : Addr := k.base + BitVec.ofNat 64 (64 * k.fetch)

/-- R126: the conditions of a fetch. -/
def State.mayFetch (s : State) (r : SubId) (c : CplId) : Bool :=
  let k := s.sub r
  k.state == .active && k.occupancy == .empty && k.producer != k.fetch && s.engine == .running &&
    (s.cpl c).state == .active && 0 < (s.cpl c).free

/-- R126: the credit is reserved, the ring becomes FETCHING and its slot read is issued. -/
def execFetchStart (r : SubId) (s : State) : Answer :=
  .next <|
    match (s.sub r).completion with
    | some c =>
      if s.mayFetch r c then
        (s.setSub r { s.sub r with occupancy := .fetching, reading := some .slot }).setCpl c
          { s.cpl c with reserved := (s.cpl c).reserved + 1 }
      else s
    | none => s

/-- R130: the checks that a transfer descriptor fails. -/
def Desc.fails (d : Desc) : Bool :=
  (d.kind != .marker && Config.maxLength < d.outLength) ||
    (d.kind == .query && (d.replyCapacity == 0 || Config.maxLength < d.replyCapacity)) ||
    ((d.kind == .send || d.kind == .query) && d.dest == Config.broadcast)

/-- R131: a descriptor whose out bytes are read. -/
def Desc.readsPayload (d : Desc) : Bool :=
  0 < d.outLength && d.kind != .marker && !(d.kind == .answer && d.decline)

/-- R44: the execution record at staging; R45 then gives its first state and its effective limit. -/
def ExecRec.fresh (d : Desc) : ExecRec :=
  { state := .held, limit := d.attemptLimit, attempts := 0, losses := 0, deadlinePassed := false, lastResult := none,
    lastBytes := 0, replyArea := [] }

/-- R133: a descriptor is compared with its port's station, staged, and handed on: a SEND, QUERY or NOTICE to the port
scheduler, which considers it at once (R45); an ANSWER to the answer window, which takes it later (R113). -/
def State.stage (s : State) (r : SubId) (d : Desc) (payload : List Byte) : State :=
  let k := s.sub r
  if (d.kind = .send ∨ d.kind = .query) ∧ (k.port.map fun p => (s.port p).config.station) = some d.dest then
    s.handOver r { tag := d.tag, status := .badDescriptor }
  else
    let x : StagedXfer :=
      { desc := d, payload, time := s.timeBase, exec := if d.kind = .answer then none else some (.fresh d) }
    let t := s.setSub r
      { k with occupancy := .staged, reading := none, abortPending := false, staged := some (.xfer x) }
    if d.kind = .answer then t else t.consider r

/-- R129 to R132, R138: the 64 bytes of a transfer ring's slot are decoded, checked, and completed or taken on. -/
def State.takeDescriptor (s : State) (r : SubId) (bytes : List Byte) : State :=
  match decodeXfer bytes with
  | none => s.handOver r { tag := tagOf bytes, status := .badDescriptor }
  | some d =>
    if d.fails then s.handOver r { tag := d.tag, status := .badDescriptor }
    else if d.kind = .marker then s.handOver r { tag := d.tag, status := .success }
    else if (s.sub r).state = .draining then s.handOver r { tag := d.tag, status := .aborted }
    else if d.readsPayload then s.setSub r { s.sub r with reading := some (.payload d) }
    else s.stage r d []

/-- R128, R129: a slot read ends. -/
def execSlotReadEnd (r : SubId) (read : ReadEnd) (s : State) : Answer :=
  let k := s.sub r
  .next <|
    if s.live ∧ k.occupancy = .fetching ∧ k.reading = some .slot then
      match read with
      | .fault =>
        if r = 0 then s.fail .adminFetchFault
        else
          (s.setSub r { k with state := if k.state = .active then .faulted else k.state }).handOver r
            { tag := 0, tagAbsent := true, status := .fetchFault }
      | .data bytes =>
        let b := fitTo 64 bytes
        let k1 := { k with fetch := nextSlot k.size k.fetch }
        if r = 0 then
          { s.setSub 0 { k1 with occupancy := .staged, reading := none, staged := some (.admin (tagOf b) (decodeAdmin b)) }
            with admin := .fresh }
        else (s.setSub r k1).takeDescriptor r b
    else s

/-- R131, R133, R138: a payload read ends. -/
def execPayloadReadEnd (r : SubId) (read : ReadEnd) (s : State) : Answer :=
  let k := s.sub r
  .next <|
    if s.live ∧ k.occupancy = .fetching then
      match k.reading with
      | some (.payload d) =>
        match read with
        | .fault => s.handOver r { tag := d.tag, status := .fetchFault }
        | .data bytes =>
          if k.state = .draining then s.handOver r { tag := d.tag, status := .aborted }
          else s.stage r d (fitTo d.outLength bytes)
      | _ => s
    else s

/-! ### Deadlines and reply stores (3.5, 3.6) -/

/-- R58: a descriptor's deadline expires. -/
def execDeadlineExpiry (r : SubId) (s : State) : Answer :=
  .next <|
    match s.execOf r with
    | some (x, e) =>
      if s.live ∧ x.desc.deadline ≠ 0 ∧ e.deadlinePassed = false then
        let t := { s with timeBase := reach s.timeBase (x.time + micros (1000 * x.desc.deadline)) }
        match e.state with
        | .held | .eligible => t.completeExec r .expired e.lastBytes
        | .inAttempt => t.setExec r x { e with deadlinePassed := true }
        | .storing => s
      else s
    | none => s

/-- R57: the write in flight of a STORING descriptor, exactly the reply bytes taken. -/
def StagedXfer.replyWrite (x : StagedXfer) (e : ExecRec) : DmaWrite :=
  { address := x.desc.replyBuffer, bytes := e.replyArea }

/-- R57: the write of a QUERY's reply ends. -/
def execReplyStoreEnd (r : SubId) (write : WriteEnd) (s : State) : Answer :=
  .next <|
    match s.execOf r with
    | some (_, e) =>
      if s.live ∧ e.state = .storing then
        match write with
        | .ok => s.completeExec r ((e.lastResult.map AttemptResult.status).getD .success) e.lastBytes
        | .fault => s.completeExec r .storeFault 0
      else s
    | none => s

/-! ### Creating, deleting, aborting (7.7, 3.9) -/

/-- R136. -/
def execCreateSubmissionRing (s : State) : Answer :=
  .next <|
    match s.freshCmd with
    | some (.createSubmissionRing ring port priority completion size base) =>
      match numbered 32 ring with
      | none => s.finishAdmin .badParameter
      | some r =>
        if r = 0 then s.finishAdmin .badParameter
        else if (s.sub r).state ≠ .absent then s.finishAdmin .inUse
        else if !legalRing size base then s.finishAdmin .badParameter
        else
          match numbered 4 port, numbered 8 priority, numbered 16 completion with
          | some p, some q, some c =>
            if (s.cpl c).state = .active then
              (s.setSub r
                { SubRing.reset with
                  state := .active, base, size, port := some p, priority := some q, completion := some c }).finishAdmin
                .success (BitVec.ofNat 32 ring)
            else s.finishAdmin .badParameter
          | _, _, _ => s.finishAdmin .badParameter
    | _ => s

/-- R66: the answer window of the ring's bound port has latched the ring's ANSWER. -/
def State.latched (s : State) (r : SubId) : Bool :=
  match (s.sub r).port with
  | some p =>
    match (s.port p).window with
    | .replying _ _ q => q == r
    | _ => false
  | none => false

/-- R64: in an acknowledge slot on a reply byte whose verdict bit has not begun, the port drives REFUSE. -/
def State.refuseInSlot (s : State) (r : SubId) (verdictBegun : Bool) : State :=
  match (s.sub r).port with
  | some p =>
    match (s.port p).frame with
    | some f =>
      match f.position with
      | .replySlot _ =>
        if f.turn = some r ∧ verdictBegun = false then
          s.setPort p { s.port p with frame := some { f with refusing := true } }
        else s
      | _ => s
    | none => s
  | none => s

/-- R63, R66: ABORT and DELETE_SUBMISSION_RING act on the staged descriptor of a ring. -/
def State.abortStaged (s : State) (r : SubId) (verdictBegun : Bool) : State :=
  match s.stagedOf r with
  | none => s
  | some x =>
    match x.exec with
    | none =>
      if s.latched r then s.setSub r { s.sub r with abortPending := true } else s.completeAnswer r .aborted 0
    | some e =>
      match e.state with
      | .held | .eligible => s.completeExec r .aborted e.lastBytes
      | .inAttempt => (s.setSub r { s.sub r with abortPending := true }).refuseInSlot r verdictBegun
      | .storing => s

/-- R137 to R139. -/
def execDeleteSubmissionRing (verdictBegun : Bool) (s : State) : Answer :=
  .next <|
    match s.freshCmd with
    | some (.deleteSubmissionRing ring) =>
      match numbered 32 ring with
      | none => s.finishAdmin .badParameter
      | some r =>
        let k := s.sub r
        let wait := { s with admin := .deletingSub r }
        if r = 0 then s.finishAdmin .badParameter
        else
          match k.state with
          | .absent => s.finishAdmin .notFound
          | .faulted => if k.occupancy = .empty then (s.setSub r .reset).finishAdmin .success else wait
          | .draining => wait
          | .active =>
            if k.occupancy = .empty then (s.setSub r .reset).finishAdmin .success
            else (wait.setSub r { k with state := .draining, producer := k.fetch }).abortStaged r verdictBegun
    | _ => s

/-- R63, R67. -/
def execAbort (verdictBegun : Bool) (s : State) : Answer :=
  .next <|
    match s.freshCmd with
    | some (.abort ring tag) =>
      match numbered 32 ring with
      | none => s.finishAdmin .badParameter
      | some r =>
        if r = 0 then s.finishAdmin .badParameter
        else if (s.sub r).state = .absent then s.finishAdmin .notFound
        else
          match s.stagedOf r with
          | some x =>
            if x.desc.tag = tag then
              let status : Status := if x.exec.map ExecRec.state = some .storing then .notFound else .success
              ({ s with admin := .aborting r status } : State).abortStaged r verdictBegun
            else s.finishAdmin .notFound
          | none => s.finishAdmin .notFound
    | _ => s

end Sys2Proof.Machine
end

