-- ==== Sys2Proof/Machine/Completion.lean ====
section
/-!
DEFINITION. The meanings of the commands of completion rings, coalescing and vectors (chapter 8).
-/
namespace Sys2Proof.Machine

/-- R143: the write of the record at the head of the posting queue: its slot is the tail, its phase the ring's, its
timestamp the time base. -/
def CplRing.recordWrite (k : CplRing) (e : CplEntry) (now : Time) : DmaWrite :=
  { address := k.base + BitVec.ofNat 64 (32 * k.tail), bytes := completionRecord e k.phase now }

/-- R143: the record at the head of the queue begins its write, where no other write of the ring is in flight. -/
def execCompletionWriteStart (c : CplId) (s : State) : Answer :=
  let k := s.cpl c
  .next <|
    match k.queue, k.writing with
    | e :: _, none => if s.live then s.setCpl c { k with writing := some (k.recordWrite e s.timeBase) } else s
    | _, _ => s

/-- R134, R138, R139: the record of a submission ring has been written: the ring is EMPTY, and a ring that is being
deleted becomes ABSENT, whereupon the deletion completes. -/
def State.recordWritten (s : State) (r : SubId) : State :=
  let k := s.sub r
  if s.admin = .deletingSub r then (s.setSub r .reset).finishAdmin .success
  else if k.state = .draining then s.setSub r .reset
  else s.setSub r { k with occupancy := .empty, reading := none, staged := none, abortPending := false }

/-- R143, R145, R148, R174: a completion record write ends. -/
def execCompletionWriteEnd (c : CplId) (write : WriteEnd) (s : State) : Answer :=
  let k := s.cpl c
  .next <|
    match k.queue, k.writing with
    | e :: rest, some _ =>
      if s.live then
        match write with
        | .fault => s.fail .completionWriteFault
        | .ok =>
          let q := k.irq.posted s.timeBase
          let t := s.setCpl c
            { k with
              queue := rest, writing := none, reserved := k.reserved - 1, tail := nextSlot k.size k.tail,
              phase := nextPhase k.size k.tail k.phase, irq := q.1 }
          ((t.recordWritten e.ring).sendIf q.2 k.irq.vector).settleHalt
      else s
    | _, _ => s

/-- R149: the delay of a COUNTING ring runs out. -/
def execCoalescingTimer (ring : RingRef) (s : State) : Answer :=
  .next <|
    match ring with
    | .completion c =>
      let k := s.cpl c
      match k.irq.state, k.irq.timer with
      | .counting, some due =>
        if s.live then
          (({ s with timeBase := reach s.timeBase due } : State).setCpl c { k with irq := k.irq.fire }).sendMessage
            k.irq.vector
        else s
      | _, _ => s
    | .receive r =>
      let k := s.rcv r
      match k.irq.state, k.irq.timer with
      | .counting, some due =>
        if s.live then
          (({ s with timeBase := reach s.timeBase due } : State).setRcv r { k with irq := k.irq.fire }).sendMessage
            k.irq.vector
        else s
      | _, _ => s

/-- R152: the oldest message write in flight on a vector ends. -/
def execMessageWriteEnd (v : VecId) (write : WriteEnd) (s : State) : Answer :=
  .next <|
    if s.live ∧ s.messages.any (·.vector == v) then
      match write with
      | .ok => { s with messages := s.messages.eraseP (·.vector == v) }
      | .fault => ({ s with messages := s.messages.eraseP (·.vector == v) } : State).fail .messageWriteFault
    else s

/-- R153. -/
def execSetVector (s : State) : Answer :=
  .next <|
    match s.freshCmd with
    | some (.setVector vector masked data address) =>
      match numbered 16 vector with
      | none => s.finishAdmin .badParameter
      | some v =>
        if !alignedTo 4 address then s.finishAdmin .badParameter
        else
          let pending := (s.vector v).pending
          let t := s.setVector v { address, data, masked, pending := masked && pending }
          (t.sendIf (!masked && pending) v).finishAdmin .success
    | _ => s

/-- R154. -/
def execCreateCompletionRing (s : State) : Answer :=
  .next <|
    match s.freshCmd with
    | some (.createCompletionRing ring vector threshold size delay base) =>
      match numbered 16 ring with
      | none => s.finishAdmin .badParameter
      | some c =>
        if c = 0 then s.finishAdmin .badParameter
        else if (s.cpl c).state ≠ .absent then s.finishAdmin .inUse
        else if !legalRing size base then s.finishAdmin .badParameter
        else
          match numbered 16 vector with
          | some v =>
            if 1 ≤ threshold ∧ threshold ≤ 255 then
              (s.setCpl c (CplRing.made base size v threshold delay)).finishAdmin .success (BitVec.ofNat 32 ring)
            else s.finishAdmin .badParameter
          | none => s.finishAdmin .badParameter
    | _ => s

/-- R155: whether a submission ring that is not ABSENT names a completion ring. -/
def State.completionNamed (s : State) (c : CplId) : Bool :=
  allSubs.any fun r => (s.sub r).state != .absent && (s.sub r).completion == some c

/-- R155. -/
def execDeleteCompletionRing (s : State) : Answer :=
  .next <|
    match s.freshCmd with
    | some (.deleteCompletionRing ring) =>
      match numbered 16 ring with
      | none => s.finishAdmin .badParameter
      | some c =>
        if c = 0 then s.finishAdmin .badParameter
        else if (s.cpl c).state = .absent then s.finishAdmin .notFound
        else if s.completionNamed c then s.finishAdmin .inUse
        else (s.setCpl c .reset).finishAdmin .success
    | _ => s

end Sys2Proof.Machine
end

