-- ==== Sys2Proof/Machine/Receive.lean ====
section
/-!
DEFINITION. The meanings of the commands of receive rings (chapter 9).
-/
namespace Sys2Proof.Machine

/-- R160: the write of the record at the head of the posting queue: its slot is the tail, its phase the ring's, and it
takes the ring's lost count. -/
def RcvRing.recordWrite (k : RcvRing) (e : RcvEntry) : DmaWrite :=
  { address := k.base + BitVec.ofNat 64 (96 * k.tail), bytes := receiveRecord e k.phase k.lost }

/-- R160, R163: the record at the head of the queue begins its write, and the lost count becomes 0. -/
def execReceiveWriteStart (r : RcvId) (s : State) : Answer :=
  let k := s.rcv r
  .next <|
    match k.queue, k.writing with
    | e :: _, none => if s.live then s.setRcv r { k with writing := some (k.recordWrite e), lost := 0 } else s
    | _, _ => s

/-- R160, R164, R165, R167: a receive record write ends. -/
def execReceiveWriteEnd (r : RcvId) (write : WriteEnd) (s : State) : Answer :=
  let k := s.rcv r
  .next <|
    match k.queue, k.writing with
    | _ :: rest, some _ =>
      if s.live then
        match write with
        | .fault => s.fail .receiveWriteFault
        | .ok =>
          let q := k.irq.posted s.timeBase
          let t := (s.setRcv r
            { k with
              queue := rest, writing := none, tail := nextSlot k.size k.tail,
              phase := nextPhase k.size k.tail k.phase, irq := q.1 }).sendIf q.2 k.irq.vector
          if k.closing ∧ rest = [] then
            let u := t.dropRcv r
            if u.admin = .deletingRcv r then u.finishAdmin .success else u
          else t
      else s
    | _, _ => s

/-- R166. -/
def execCreateReceiveRing (s : State) : Answer :=
  .next <|
    match s.freshCmd with
    | some (.createReceiveRing ring vector threshold policy size delay base) =>
      match numbered 16 ring with
      | none => s.finishAdmin .badParameter
      | some r =>
        if (s.rcv r).state ≠ .absent then s.finishAdmin .inUse
        else if !legalRing size base then s.finishAdmin .badParameter
        else
          match FullPolicy.ofCode policy, numbered 16 vector with
          | some y, some v =>
            if 1 ≤ threshold ∧ threshold ≤ 255 then
              (s.setRcv r
                { RcvRing.reset with
                  state := .active, base, size, policy := y,
                  irq := { Irq.reset with vector := v, threshold, delay } }).finishAdmin
                .success (BitVec.ofNat 32 ring)
            else s.finishAdmin .badParameter
          | _, _ => s.finishAdmin .badParameter
    | _ => s

/-- R167: a valid entry names a receive ring as the target ring or the notify ring that its action uses. -/
def MatchEntry.namesRing (e : MatchEntry) (r : RcvId) : Bool :=
  e.valid &&
    match e.action with
    | some .deliver | some .defer => e.targetRing.toNat == r.val
    | some .replySlot | some .slotWrite => e.notifyRing.any fun b => b.toNat == r.val
    | some .refuse | none => false

/-- R110: the query an answer window holds. -/
def Window.query : Window → Option QueryDetails
  | .none => Option.none
  | .waiting q _ _ => some q
  | .replying q _ _ => some q

/-- R167, R168. -/
def execDeleteReceiveRing (s : State) : Answer :=
  .next <|
    match s.freshCmd with
    | some (.deleteReceiveRing ring) =>
      match numbered 16 ring with
      | none => s.finishAdmin .badParameter
      | some r =>
        if (s.rcv r).state = .absent then s.finishAdmin .notFound
        else if s.entries.any (·.namesRing r) then s.finishAdmin .inUse
        else if s.ports.any (fun x => x.window.query.any (·.ring == r)) then s.finishAdmin .inUse
        else
          let t := ({ s with ports := s.ports.map (Port.cancelReservation r) } : State).setRcv r
            { s.rcv r with held := 0, closing := true }
          if (s.rcv r).queue = [] ∧ (s.rcv r).writing = none then (t.dropRcv r).finishAdmin .success
          else { t with admin := .deletingRcv r }
    | _ => s

end Sys2Proof.Machine
end

