-- ==== Sys2Proof/Machine/PortAdmin.lean ====
section
/-!
DEFINITION. The meanings of the administration commands of ports (chapter 2): configuration, start, stop, recovery
and statistics.
-/
namespace Sys2Proof.Machine

/-- R32, R33: the configuration that SET_PORT carries, where every field is in its range. -/
def portConfig (rate station holdCeiling answerLimit patience barThreshold stuckLimit : Nat) : Option PortConfig :=
  match Rate.ofCode rate with
  | some k =>
    if station ≤ 1022 ∧ 10 ≤ holdCeiling ∧ holdCeiling ≤ 65535 ∧ 10 ≤ answerLimit ∧ answerLimit ≤ 65535 ∧
        1 ≤ patience ∧ patience ≤ 255 ∧ 1 ≤ barThreshold ∧ barThreshold ≤ 15 ∧ 1 ≤ stuckLimit ∧ stuckLimit ≤ 255 then
      some { station := BitVec.ofNat 10 station, rate := k, holdCeiling, answerLimit, patience, barThreshold, stuckLimit }
    else none
  | none => none

/-- R33. -/
def execSetPort (s : State) : Answer :=
  .next <|
    match s.freshCmd with
    | some (.setPort port rate station holdCeiling answerLimit patience barThreshold stuckLimit) =>
      match numbered 4 port with
      | none => s.finishAdmin .badParameter
      | some p =>
        if (s.port p).state ≠ .off then s.finishAdmin .portBusy
        else
          match portConfig rate station holdCeiling answerLimit patience barThreshold stuckLimit with
          | some c => (s.setPort p { s.port p with config := c }).finishAdmin .success
          | none => s.finishAdmin .badParameter
    | _ => s

/-- R24: the checks of every PORT_CONTROL, and then the rule of its sub-command. A port number above 3 or a
sub-command other than 1, 2 or 3 completes BAD_PARAMETER, whichever PORT_CONTROL row takes it. -/
def State.portControl (s : State) (sub : Nat) (act : PortId → State) : State :=
  match s.freshCmd with
  | some (.portControl port k) =>
    match numbered 4 port with
    | none => s.finishAdmin .badParameter
    | some p => if k < 1 ∨ 3 < k then s.finishAdmin .badParameter else if k = sub then act p else s
  | _ => s

/-- R24, R21, R7: START takes an OFF port to IDLE, with bus view BUSY and idle time 0. A line that is low counts its low time
from then, and the idle time counts once both lines are high. -/
def execPortControlStart (s : State) (bck bda : Level := .recessive) : Answer :=
  .next <| s.portControl 1 fun p =>
    if (s.port p).state = .off then
      (s.setPort p
        { (s.port p).toIdle (if bck = .recessive ∧ bda = .recessive then some s.timeBase else none) with
          stopPending := false, bckLowSince := lowFrom bck s.timeBase,
          bdaLowSince := lowFrom bda s.timeBase }).finishAdmin .success
    else s.finishAdmin .portBusy

/-- R31, R120, R20, R21: the hold ends and the port is SERVING. It has released BCK: the silence time starts if BCK rises,
and BCK's low time starts from 0 if another station keeps it low (`bck`). BDA is the port's own dominant presence bit. -/
def Port.endHold (x : Port) (now : Time) (bck : Level) : Port :=
  { x with
    state := .serving, bckDriver := .released, bckLowSince := lowFrom bck now, bdaLowSince := some now,
    silenceSince := if bck = .recessive then some now else none }

/-- R116, R120: the answer window closes the query without an ANSWER: the expiry answer becomes the turnaround answer
of the service record, the window goes to NONE, QUERY_CLOSED is posted with the reason, and the hold ends. -/
def State.closeQuery (s : State) (p : PortId) (q : QueryDetails) (expiry : ExpiryAnswer) (reason : CloseReason)
    (bck : Level) : State :=
  let x := s.port p
  let x1 :=
    match x.service with
    | some v => x.setService { v with turnaround := some expiry }
    | none => x
  (s.setPort p { x1.endHold s.timeBase bck with window := .none }).queryClosed p q reason

/-- R34. -/
def execPortControlStop (s : State) (bck : Level := .recessive) : Answer :=
  .next <| s.portControl 2 fun p =>
    let x := s.port p
    let wait := ({ s with admin := .stopping p } : State).setPort p { x with stopPending := true }
    match x.state with
    | .off => s.finishAdmin .success
    | .idle | .observing | .faulted | .recovering => ({ s with admin := .stopping p } : State).enterOff p
    | .arbitrating | .initiating | .serving => wait
    | .holding =>
      match x.window with
      | .waiting q expiry _ => wait.closeQuery p q expiry .portStopped bck
      | _ => wait

/-- R39. -/
def execPortControlRecover (s : State) : Answer :=
  .next <| s.portControl 3 fun p =>
    if (s.port p).state = .faulted then
      { (s.setPort p ((s.port p).toRecovering s.timeBase)).count p .stuckEvents with admin := .recovering p }
    else s.finishAdmin .portBusy

/-- R41: the counters are copied as a snapshot, and its write begins. -/
def execReadPortStats (s : State) : Answer :=
  .next <|
    match s.freshCmd with
    | some (.readPortStats port clear buffer) =>
      match numbered 4 port with
      | none => s.finishAdmin .badParameter
      | some p =>
        if !alignedTo 4 buffer then s.finishAdmin .badParameter
        else
          let snapshot := (s.port p).stats
          { s with admin := .statsWrite p clear snapshot { address := buffer, bytes := statsBytes snapshot } }
    | _ => s

/-- R41: the write of the snapshot ends. -/
def execStatsWriteEnd (write : WriteEnd) (s : State) : Answer :=
  .next <|
    match s.admin with
    | .statsWrite p clear snapshot _ =>
      if s.live then
        match write with
        | .fault => s.finishAdmin .storeFault
        | .ok =>
          let x := s.port p
          (s.setPort p { x with stats := if clear then x.stats.less snapshot else x.stats }).finishAdmin .success
      else s
    | _ => s

end Sys2Proof.Machine
end

