-- ==== Sys2Proof/Machine/MatchReply.lean ====
section
/-!
DEFINITION. The meanings of the administration commands of the match table, the reply store and the health table
(chapters 4, 5 and 6).
-/
namespace Sys2Proof.Machine

/-! ### Match table (5.7) -/

/-- R84: the kinds an action suits, in the bit positions of a kind set. -/
def Action.suits : Action → BitVec 3
  | .deliver => 0b101
  | .replySlot => 0b010
  | .slotWrite => 0b001
  | .defer => 0b010
  | .refuse => 0b111

/-- R99: a byte names a receive ring that is ACTIVE. -/
def State.ringActive (s : State) (b : Byte) : Bool :=
  b.toNat ≤ 15 && (s.rcv (ringOfByte b)).state == .active

/-- R99, checks 4 and 5: the rings and slots that the action uses. -/
def State.matchTargetsOk (s : State) (a : Action) (targetRing slot notifyRing : Byte) (notifyPresent : Bool) : Bool :=
  match a with
  | .deliver | .defer => s.ringActive targetRing
  | .replySlot | .slotWrite => slot.toNat ≤ 31 && (!notifyPresent || s.ringActive notifyRing)
  | .refuse => true

/-- R99. -/
def execSetMatch (s : State) : Answer :=
  .next <|
    match s.freshCmd with
    | some (.setMatch index action ports kinds channelValue channelMask targetRing slot notifyRing notifyPresent expiry
        sourceValue sourceMask) =>
      match numbered 32 index, Action.ofCode action with
      | some i, some a =>
        if ports = 0 ∨ kinds = 0 ∨ kinds &&& ~~~a.suits ≠ 0 then s.finishAdmin .badParameter
        else if 1023 < sourceValue ∨ 1023 < sourceMask ∨ (a = .defer ∧ 1 < expiry.toNat) then
          s.finishAdmin .badParameter
        else if s.matchTargetsOk a targetRing slot notifyRing notifyPresent then
          (s.setEntry i
            { valid := true, ports, kinds, channelValue, channelMask, sourceValue := BitVec.ofNat 10 sourceValue,
              sourceMask := BitVec.ofNat 10 sourceMask, action := some a, targetRing, slot,
              notifyRing := if notifyPresent then some notifyRing else none, expiry }).finishAdmin .success
        else s.finishAdmin .badParameter
      | _, _ => s.finishAdmin .badParameter
    | _ => s

/-- R100. -/
def execClearMatch (s : State) : Answer :=
  .next <|
    match s.freshCmd with
    | some (.clearMatch index) =>
      match numbered 32 index with
      | some i => (s.setEntry i .reset).finishAdmin .success
      | none => s.finishAdmin .badParameter
    | _ => s

/-! ### Reply store (6.1) -/

/-- R103: a length of 0 replaces the slot at once; a length of 1..64 begins the read of the buffer. -/
def execSetReply (s : State) : Answer :=
  .next <|
    match s.freshCmd with
    | some (.setReply slot length oneShot buffer) =>
      match numbered 32 slot with
      | none => s.finishAdmin .badParameter
      | some i =>
        if Config.maxLength < length then s.finishAdmin .badParameter
        else if length = 0 then (s.setReply i { loaded := true, data := [], oneShot }).finishAdmin .success
        else { s with admin := .replyRead i length oneShot buffer }
    | _ => s

/-- R103: the read of the reply bytes ends. -/
def execSetReplyReadEnd (read : ReadEnd) (s : State) : Answer :=
  .next <|
    match s.admin with
    | .replyRead i length oneShot _ =>
      if s.live then
        match read with
        | .fault => s.finishAdmin .fetchFault
        | .data bytes => (s.setReply i { loaded := true, data := fitTo length bytes, oneShot }).finishAdmin .success
      else s
    | _ => s

/-- R104. -/
def execClearReply (s : State) : Answer :=
  .next <|
    match s.freshCmd with
    | some (.clearReply slot) =>
      match numbered 32 slot with
      | some i => (s.setReply i .reset).finishAdmin .success
      | none => s.finishAdmin .badParameter
    | _ => s

/-! ### Health table (4.5, 4.6) -/

/-- R77. -/
def execClearHealth (s : State) : Answer :=
  .next <|
    match s.freshCmd with
    | some (.clearHealth port scope station) =>
      match numbered 4 port with
      | none => s.finishAdmin .badParameter
      | some p =>
        if scope = 1 then
          if 1022 < station then s.finishAdmin .badParameter
          else
            let st : Station := BitVec.ofNat 10 station
            if (s.healthEntry p st).isSome then
              ({ s with health := s.health.filter fun x => !x.names p st } : State).finishAdmin .success
            else s.finishAdmin .notFound
        else if scope = 2 then
          ({ s with health := s.health.filter fun x => x.port != p } : State).finishAdmin .success
        else s.finishAdmin .badParameter
    | _ => s

/-- R79: the table is copied as a snapshot; an empty snapshot completes at once, another begins its write. -/
def execReadHealth (s : State) : Answer :=
  .next <|
    match s.freshCmd with
    | some (.readHealth buffer) =>
      if !alignedTo 4 buffer then s.finishAdmin .badParameter
      else if s.health = [] then s.finishAdmin .success
      else { s with admin := .healthWrite s.health.length { address := buffer, bytes := s.health.flatMap healthRecord } }
    | _ => s

/-- R79: the write of the snapshot ends. -/
def execHealthWriteEnd (write : WriteEnd) (s : State) : Answer :=
  .next <|
    match s.admin with
    | .healthWrite n _ =>
      if s.live then
        match write with
        | .ok => s.finishAdmin .success (BitVec.ofNat 32 n)
        | .fault => s.finishAdmin .storeFault
      else s
    | _ => s

end Sys2Proof.Machine
end

