-- ==== Sys2Proof/Machine/Frame.lean ====
section
/-!
DEFINITION. The meanings of the events of a frame at a port, as initiator, target, listener and observer (chapters 1,
2, 3, 5 and 6): the choice and the opening, arbitration, the header judgement, the bytes and slots, and the ends of
the frame. Every one is a happening at a port (`State.atPort`), and ends with what it may bring about
(`State.settle`: a pending stop, HALTED).
-/
namespace Sys2Proof.Machine

/-- A happening at a port, settled. At a port that drives on after the engine's failure it has no effect, unless `leaves`
says otherwise (R42). -/
def State.event (s : State) (p : PortId) (act : Port → State) (leaves : Port → State := fun _ => s) : State :=
  (s.atPort p act leaves).settle p s

/-- What acts on a port's frame; without a frame record it has no effect. -/
def State.onFrame (s : State) (act : Port → FrameRec → State) (x : Port) : State :=
  match x.frame with
  | some f => act x f
  | none => s

/-- A happening within a port's frame. Where it ends a byte or slot, or the frame, it takes a port that drives on after the
engine's failure OFF; `leaves` says what any other does there (R42, notes/assumptions/16.md). -/
def State.inFrame (s : State) (p : PortId) (act : Port → FrameRec → State)
    (leaves : Port → FrameRec → State := fun _ _ => s.leavesFrame p) : State :=
  s.event p (s.onFrame act) (s.onFrame leaves)

/-! ### Choice, opening, arbitration -/

/-- R51: the frame record of the opening port: an initiator at its first header bit. -/
def initiatorFrame (r : SubId) (h : Header) : FrameRec :=
  { FrameRec.fresh with role := .initiator, rxHeader := h, turn := some r }

/-- R51, R25: the port's opening for the staged descriptor of a ring takes effect: the round-robin position of the ring's
priority moves, the port counts one in frames_started, and its frame is at the first header bit. -/
def State.openFrame (s : State) (p : PortId) (r : SubId) (d : Desc) : State :=
  let t := (s.setPosition p (s.priorityOf r) r.val).count p .framesStarted
  let x := t.port p
  t.setPort p
    { x with
      state := .arbitrating, busView := .busy, idleSince := none, idleFull := false, bdaDriver := .drivenLow,
      silenceSince := some s.timeBase, bdaLowSince := some s.timeBase,
      frame := some (initiatorFrame r (headerFor d x.config.station)) }

/-- R49, R51: the descriptor's turn begins: it is IN_ATTEMPT, and its port has left IDLE and is about to open. -/
def State.beginTurn (s : State) (p : PortId) (r : SubId) (y : StagedXfer) (e : ExecRec) : State :=
  let t := s.setExec r y { e with state := .inAttempt }
  let x := t.port p
  t.setPort p
    { x with
      state := .arbitrating,
      frame := some { initiatorFrame r (headerFor y.desc x.config.station) with position := .opening } }

/-- R49 to R51, R25: the scheduler's choice, and the port's opening for it, at once or by a second row (`opens`). It looks
at the bus view, not at the lines (notes/assumptions/31.md). -/
def execSchedulerChoice (p : PortId) (s : State) (opens : Bool := true) : Answer :=
  .next <|
    let x := s.port p
    if s.engine = .running ∧ x.state = .idle ∧ x.busView = .free then
      match s.pick p with
      | some r =>
        match s.execOf r with
        | some (y, e) =>
          let t := s.beginTurn p r y e
          if opens then t.openFrame p r y.desc else t
        | none => s
      | none => s
    else if s.live ∧ x.state = .arbitrating ∧ x.frame.map (·.position) = some .opening ∧ opens then
      match x.frame.bind (·.turn) with
      | some r =>
        match s.stagedOf r with
        | some y => s.openFrame p r y.desc
        | none => s
      | none => s
    else s

/-- R39: a RECOVER in progress ends with the recovery of its port. Its ring, 0, comes before those of the descriptors that
the same happening completes (R134, notes/assumptions/32.md). -/
def State.endRecover (s : State) (p : PortId) (status : Status) : State :=
  if s.admin = .recovering p then s.finishAdmin status else s

/-- R46, R38, R39: recovery succeeds: the port goes on as `x` says, a RECOVER in progress completes, and the HELD
descriptors are checked. -/
def State.recovered (s : State) (p : PortId) (x : Port) : State :=
  ((s.setPort p x).endRecover p .success).recheckHeld p

/-- R5: a port that sees another station's opening takes up a frame record. Its silence time counts from the opening until
BCK first falls (notes/assumptions/26.md). -/
def Port.seeOpening (x : Port) (now : Time) : Port :=
  { x.toObserving .fresh with silenceSince := some now, bckLowSince := none, bdaLowSince := some now }

/-- R5, R25, R38, R51, R59: another station's opening is seen by a port without a frame record, or by one that has been
given a descriptor and has not opened: its descriptor's turn is then over without a loss; with an abort pending it
completes ABORTED (notes/assumptions/35.md). -/
def execOpening (p : PortId) (s : State) : Answer :=
  .next <| s.event p fun x =>
    match x.state with
    | .idle => s.setPort p (x.seeOpening s.timeBase)
    | .arbitrating =>
      match x.frame with
      | some f =>
        match f.position, f.turn with
        | .opening, some r => (s.setPort p (x.seeOpening s.timeBase)).returnTurn r
        | _, _ => s
      | none => s
    | .recovering =>
      if x.recovery.map Recovery.phase = some .gap then s.recovered p (x.seeOpening s.timeBase) else s
    | _ => s

/-- R10: the turn of a port that is still an initiator in the header and has sent the bit recessive. -/
def Port.lostTurn (x : Port) (f : FrameRec) (bit : Fin 24) : Option SubId :=
  match x.state, f.position with
  | .arbitrating, .header _ => if headerBit f.rxHeader bit then f.turn else none
  | _, _ => none

/-- R10, R26, R52: the port loses arbitration at a header bit that it sent as recessive. From then on it drives nothing, so
that after the engine's failure it is OFF (R42, notes/assumptions/16.md). -/
def execArbitrationLoss (p : PortId) (bit : Fin 24) (s : State) : Answer :=
  .next <| s.inFrame p
    (fun x f =>
      match x.lostTurn f bit with
      | some r =>
        let sampled := f.rxHeader &&& ~~~(BitVec.twoPow 24 (23 - bit.val))
        let t := (s.count p .arbitrationLost).setFrame p
          { f with role := .observer, position := .header (bit.val + 1), rxHeader := sampled, turn := none } .dominant (bit.val % 8)
        let t := t.setPort p { t.port p with bckDriver := .released, bdaDriver := .released }
        t.loseTurn r x.config.patience
      | none => s)
    fun x f => if (x.lostTurn f bit).isSome then s.leavesFrame p else s

/-- R85: the source test of an entry. -/
def MatchEntry.takesSource (e : MatchEntry) (source : Station) : Bool :=
  (source &&& e.sourceMask) == (e.sourceValue &&& e.sourceMask)

/-- The bit of a kind set. -/
def FrameKind.bit : FrameKind → Nat
  | .send => 0 | .query => 1 | .notice => 2

/-- R85: the candidate list: a copy, in increasing entry index, of every valid entry that passes the tests of port, kind
and source. -/
def State.candidates (s : State) (p : PortId) (kind : FrameKind) (source : Station) : List Candidate :=
  ((List.finRange 32).filter fun i =>
      let e := s.entry i
      e.valid && e.ports.getLsbD p.val && e.kinds.getLsbD kind.bit && e.takesSource source).map
    fun i => { index := i, entry := s.entry i }

/-- R81: the service record at the header judgement. R81 gives no value to the expected length and the verdict time before
the header verdict sets them: they start at 0 and absent (notes/assumptions/27.md). -/
def ServiceRec.fresh (candidates : List Candidate) : ServiceRec :=
  { candidates, hit := none, verdict := none, reservation := none, discard := false, verdictTime := none,
    received := [], expected := 0, turnaround := none }

/-- R9, R82: a receiving port judges the header it has taken. -/
def State.receiverJudges (s : State) (p : PortId) (x : Port) (f : FrameRec) (h : Header) : State :=
  let g := { f with rxHeader := h, position := .channelByte }
  let last := levelOfBit (Header.check2 h)
  let observe := s.observeFrame p g last
  let serve := fun (role : Role) (c : List Candidate) =>
    (s.setPort p { x with state := .serving }).setFrame p { g with role := role, service := some (.fresh c) } last
  if x.stopPending then observe
  else
    match judge h x.config.station with
    | .addressed kind => serve .target (s.candidates p kind (Header.source h))
    | .broadcast =>
      let c := s.candidates p .notice (Header.source h)
      if c = [] then observe else serve .listener c
    | .ignored | .other => observe

/-- R9, R26, R29, R82: the end of the 24th header bit. A port that is still an initiator goes to INITIATING; its attempt
begins, with no reply byte taken. -/
def execHeaderJudgement (p : PortId) (wire : Header) (s : State) : Answer :=
  .next <| s.inFrame p fun x f =>
    match f.position with
    | .header n =>
      match x.state, f.turn with
      | .arbitrating, some r =>
        let bit := Header.check2 f.rxHeader
        let t := (s.setPort p { x with state := .initiating, bdaDriver := driverOfBit bit }).setFrame p
          { f with position := .channelByte } (levelOfBit bit)
        match t.execOf r with
        | some (d, e) => t.setExec r d { e with replyArea := [] }
        | none => t
      | .arbitrating, none | .observing, _ => s.receiverJudges p x f (completeHeader f.rxHeader n wire)
      | _, _ => s
    | _ => s

/-! ### Channel byte, length byte, header verdict -/

/-- R83: the channel test of an entry. -/
def MatchEntry.takesChannel (e : MatchEntry) (channel : Byte) : Bool :=
  (channel &&& e.channelMask) == (e.channelValue &&& e.channelMask)

/-- The staged descriptor in turn (R51), where the port is the initiator. -/
def State.turnXfer (s : State) (f : FrameRec) : Option StagedXfer := f.turn.bind fun r => s.stagedOf r

/-- R11, R17, R51, R107: the byte that the port is sending: as initiator the descriptor's channel, its out length and the
bytes of its staged payload; as target the length and the bytes of its reply. -/
def State.sentByte (s : State) (x : Port) (f : FrameRec) : Option Byte :=
  match x.state, f.position with
  | .initiating, .channelByte => (s.turnXfer f).map (·.desc.channel)
  | .initiating, .lengthByte => (s.turnXfer f).map fun y => BitVec.ofNat 8 y.desc.outLength
  | .initiating, .byte n => (s.turnXfer f).bind (·.payload[n]?)
  | .serving, .replyLength => if f.overridden then none else some (BitVec.ofNat 8 f.reply.length)
  | .serving, .replyByte n => if f.overridden then none else f.reply[n]?
  | _, _ => none

/-- R2, R4: the byte that the port has sent ends: its frame goes on, and its last bit stays on BDA until BCK falls. -/
def State.byteSent (s : State) (p : PortId) (f : FrameRec) (byte : Byte) : State :=
  (s.setFrame p f (levelOfBit (lastBit byte))).driveBda p (driverOfBit (lastBit byte))

/-- R2, R15 to R19: where a frame that the port follows stands when `n` of its payload or request bytes have been
accepted. -/
def FrameRec.sequel (f : FrameRec) (n : Nat) : Position :=
  match f.length with
  | some length =>
    if Header.kind f.rxHeader = 0 then .following
    else if n < length.toNat then .byte n
    else if Header.frameKind f.rxHeader = .query then .turnaround
    else .done
  | none => .following

/-- R2, R15 to R19: where the frame stands after an acknowledge slot that a port without a part in it has read. A NOTICE goes
on whatever its byte slots read (R18). -/
def FrameRec.observedSlot (f : FrameRec) (reading : SlotReading) : Position :=
  let notice := Header.frameKind f.rxHeader = .notice
  match f.position with
  | .headerSlot => if reading = .accept ∨ (notice ∧ reading = .refuse) then f.sequel 0 else .done
  | .byteSlot n => if reading = .accept ∨ notice then f.sequel (n + 1) else .done
  | .replySlot n => if reading = .accept ∧ n + 1 < (f.replyLength.getD 0).toNat then .replyByte (n + 1) else .done
  | other => other

/-- R86, R11, R51: the end of the channel byte. The initiator has sent its descriptor's. -/
def execChannelByte (p : PortId) (byte : Byte) (s : State) : Answer :=
  .next <| s.inFrame p fun x f =>
    let g := { f with position := .lengthByte, channel := some byte }
    let last := levelOfBit (lastBit byte)
    match f.position, x.state, f.service with
    | .channelByte, .serving, some v =>
      let hit := v.candidates.find? (·.entry.takesChannel byte)
      if hit = none ∧ f.role = .listener then s.observeFrame p g last
      else s.setFrame p { g with service := some { v with hit } } last
    | .channelByte, .observing, _ => s.setFrame p g last
    | .channelByte, .initiating, _ =>
      match s.sentByte x f with
      | some sent => s.byteSent p { g with channel := some sent } sent
      | none => s
    | _, _, _ => s

/-- R87, R93: the header verdict is recorded, to be driven in the header slot; a REFUSE counts in inbound_refused. -/
def State.giveVerdict (s : State) (p : PortId) (f : FrameRec) (v : ServiceRec) (verdict : HeaderVerdict) : State :=
  let t := s.setFrame p { f with position := .headerSlot, service := some { v with verdict := some verdict } }
    (levelOfBit (lastBit (f.length.getD 0)))
  if verdict = .refuse then t.count p .inboundRefused else t

/-- R88: the verdict of a DELIVER hit. -/
def State.deliverVerdict (s : State) (p : PortId) (f : FrameRec) (v : ServiceRec) (h : Candidate) : State :=
  let r := ringOfByte h.entry.targetRing
  match (s.rcv r).answer with
  | .granted => (s.reserve r).giveVerdict p f { v with reservation := some r } .accept
  | .full =>
    match (s.rcv r).policy with
    | .refuseWhenFull => s.giveVerdict p f v .refuse
    | .discardWhenFull => s.giveVerdict p f { v with discard := true } .accept
  | .absent => s.giveVerdict p f v .refuse

/-- R90, R105, R106: the verdict of a REPLY_SLOT hit: a LOADED slot is copied into the port's snapshot area, and a
one-shot slot is emptied and noted. -/
def State.replySlotVerdict (s : State) (p : PortId) (f : FrameRec) (v : ServiceRec) (h : Candidate) : State :=
  let i := slotOfByte h.entry.slot
  let k := s.reply i
  if k.loaded then
    let t := s.setSnapshot p (some { slot := i, data := k.data })
    let t := if k.oneShot then (t.setReply i { k with loaded := false, data := [] }).slotNote p .slotConsumed h f v.expected
      else t
    t.giveVerdict p f v .accept
  else s.giveVerdict p f v .refuse

/-- R92: the verdict of a DEFER hit. -/
def State.deferVerdict (s : State) (p : PortId) (f : FrameRec) (v : ServiceRec) (h : Candidate) : State :=
  let r := ringOfByte h.entry.targetRing
  if (s.port p).window = .none ∧ (s.rcv r).answer = .granted then
    (s.reserve r).giveVerdict p f { v with reservation := some r } .accept
  else s.giveVerdict p f v .refuse

/-- R87: the serving port decides its header verdict from its hit. -/
def State.decideVerdict (s : State) (p : PortId) (f : FrameRec) (v : ServiceRec) : State :=
  match v.hit, v.hit.bind (·.entry.action) with
  | some h, some .deliver => s.deliverVerdict p f v h
  | some h, some .replySlot => s.replySlotVerdict p f v h
  | some _, some .slotWrite => s.giveVerdict p f v .accept
  | some h, some .defer => s.deferVerdict p f v h
  | _, _ => s.giveVerdict p f v .refuse

/-- R20, R29, R30, R97: the frame breaks for a receiving port: it counts one in frames_broken, its target side drops the
frame, and it goes to IDLE; `low` says from when BDA is low, if it is. -/
def State.receiverBreaks (s : State) (p : PortId) (f : FrameRec) (low : Option Time) : State :=
  let t := (s.count p .framesBroken).dropService p f .withdrawn
  (t.setPort p ((t.port p).endFrame s.timeBase low)).setSnapshot p none

/-- R87, R20, R11, R51: the end of the length byte. A length above 64 breaks the frame for every receiver; the idle time then
counts at once only if the byte's last bit left BDA high. The initiator has sent its descriptor's out length. -/
def execHeaderVerdict (p : PortId) (length : Byte) (s : State) : Answer :=
  .next <| s.inFrame p fun x f =>
    let g := { f with length := some length }
    let last := levelOfBit (lastBit length)
    if f.position = .lengthByte then
      match x.state with
      | .serving | .observing =>
        if Config.maxLength < length.toNat then s.receiverBreaks p g (lowFrom last (x.bdaLowAt s.timeBase))
        else
          match x.state, f.service with
          | .serving, some v =>
            s.decideVerdict p g { v with expected := length.toNat, verdictTime := some s.timeBase }
          | _, _ => s.setFrame p { g with position := .headerSlot } last
      | .initiating =>
        match s.sentByte x f with
        | some sent => s.byteSent p { f with position := .headerSlot, length := some sent } sent
        | none => s
      | _ => s
    else s

/-- R94: a payload or request byte ends. A serving port that accepted appends it to its service record; the initiator has
sent it (R51). A byte after a REFUSE shows that the frame goes on (R30). -/
def execByteReceived (p : PortId) (byte : Byte) (s : State) : Answer :=
  .next <| s.inFrame p fun x f =>
    let last := levelOfBit (lastBit byte)
    match x.state, f.position, f.service with
    | .serving, .byte n, some v =>
      (s.setFrame p { f with position := .byteSlot n, service := some { v with received := v.received ++ [byte] } }
        last).driveBda p .released
    | .serving, .refused, some _ => s.observeFrame p { f with position := .byteSlot 0 } last
    | .observing, .byte n, _ => s.setFrame p { f with position := .byteSlot n } last
    | .observing, .following, _ => s.setFrame p f last
    | .initiating, .byte n, _ =>
      match s.sentByte x f with
      | some sent => s.byteSent p { f with position := .byteSlot n } sent
      | none => s
    | _, _, _ => s

/-! ### Acknowledge slots: the initiator (R14 to R18, R53, R64) -/

/-- R14, R64: the port ends the frame after the slot in progress whatever it reads. -/
def State.mustClose (s : State) (f : FrameRec) : Bool :=
  f.givenUp || f.turn.any fun r => s.abortPending r

/-- The initiator ends the frame: its closing follows, and will report the result. -/
def FrameRec.close (f : FrameRec) (res : Option AttemptResult) : FrameRec :=
  { f with position := .closing, result := res }

/-- R15, R16, R18: what the header slot's reading leads to. -/
def FrameRec.afterHeaderSlot (f : FrameRec) (d : Desc) (reading : SlotReading) : FrameRec :=
  let first : FrameRec :=
    if 0 < d.outLength then { f with position := .byte 0 }
    else if d.kind = .query then { f with position := .turnaround }
    else f.close (some .success)
  match reading with
  | .absent => f.close (some .noTarget)
  | .refuse => if d.kind = .notice then first else f.close (some .refused)
  | .accept => first

/-- R15, R16, R18, R54: what the reading of the slot of payload or request byte `n` leads to. -/
def FrameRec.afterByteSlot (f : FrameRec) (d : Desc) (n : Nat) (reading : SlotReading) : FrameRec :=
  let g := { f with moved := n + 1 }
  let next : FrameRec :=
    if n + 1 < d.outLength then { g with position := .byte (n + 1) }
    else if d.kind = .query then { g with position := .turnaround }
    else g.close (some .success)
  if d.kind = .notice then next
  else
    match reading with
    | .accept => next
    | .refuse => f.close (some .refused)
    | .absent => f.close (some .framing)

/-- R14, R64: where the port must close after the slot, it does, with the result the slot gives if that ends the
sequence. -/
def FrameRec.orClose (f : FrameRec) (must : Bool) : FrameRec :=
  if must && f.position != .closing then f.close none else f

/-- R17, R64: the slot of reply byte `n`, which the initiator drives. -/
def FrameRec.afterReplySlot (f : FrameRec) (d : Desc) (n : Nat) : FrameRec :=
  if f.refusing then f.close (if d.replyCapacity ≤ n then some .truncated else none)
  else if n + 1 < (f.replyLength.getD 0).toNat then { f with position := .replyByte (n + 1) }
  else f.close (some .success)

/-- R27, R53: an attempt ends with a result, or with none, where the port's part in its frame ends; `x` is the port then. -/
def State.attemptOver (s : State) (p : PortId) (x : Port) (r : SubId) (got : Option AttemptResult) (moved : Nat) : State :=
  ((s.setPort p x).countFailed p r got).endAttempt r got moved

/-- R12: the port has driven REFUSE on a reply byte, and another initiator of the same frame makes the slot read ACCEPT, so
that the target sends on. The port's part in the frame is over: its attempt ends, and it waits for the closing with role
OBSERVER (notes/assumptions/28.md). -/
def State.refusedReplyGoesOn (s : State) (p : PortId) (f : FrameRec) (r : SubId) (d : Desc) (n : Nat) (last : Level) :
    State :=
  let t := s.observeFrame p { f with position := .replyByte (n + 1) } last
  t.attemptOver p (t.port p) r
    (if f.givenUp then some .holdTimeout else if d.replyCapacity ≤ n then some .truncated else none) f.moved

/-- R6, R2: a byte or slot ends at an initiator, which drives BDA as `bda` says where its frame goes on. Where its closing
follows, it pulls BDA low as BCK falls half a bit time later, and keeps it low until a quarter of a bit time after it sees
BCK high (notes/assumptions/17.md). -/
def State.initiatorGoes (s : State) (p : PortId) (f : FrameRec) (bda : Driver) (last : Level) : State :=
  let t := s.setFrame p f last
  if f.position = .closing then
    t.setPort p
      { t.port p with bdaDriver := .drivenLow, bdaLowSince := some (s.timeBase + (t.port p).halfBit) }
  else t.driveBda p bda

/-- R15 to R18: an acknowledge slot ends at the initiator; `last` is the level of its verdict bit. The bytes before it are
the port's own, so that the slot may be read in their positions too (notes/assumptions/18.md). -/
def State.initiatorSlot (s : State) (p : PortId) (f : FrameRec) (r : SubId) (d : Desc) (reading : SlotReading)
    (last : Level) : State :=
  let go := fun (g : FrameRec) => s.initiatorGoes p g .released last
  match f.position with
  | .channelByte | .lengthByte | .headerSlot => go ((f.afterHeaderSlot d reading).orClose (s.mustClose f))
  | .byte n | .byteSlot n => go ((f.afterByteSlot d n reading).orClose (s.mustClose f))
  | .replySlot n =>
    if f.refusing ∧ reading = .accept ∧ n + 1 < (f.replyLength.getD 0).toNat then s.refusedReplyGoesOn p f r d n last
    else s.initiatorGoes p (f.afterReplySlot d n) (driverOfBit f.refusing) last
  | _ => s

/-! ### Acknowledge slots: the serving port (R31, R92, R107, R112, R114) -/

/-- R112: the QUERY_WAITING record. -/
def waitingRecord (p : PortId) (f : FrameRec) (v : ServiceRec) (h : Candidate) (token : BitVec 16) : RcvEntry :=
  { kind := .queryWaiting, port := p, frameKind := .query, entry := h.index, source := Header.source f.rxHeader,
    channel := f.channel.getD 0, length := v.expected, token := some token, reason := none, slot := none,
    timestamp := v.verdictTime.getD 0, payload := v.received }

/-- R31, R92, R111, R112, R168: a QUERY that the port accepted reaches its turnaround. A DEFER frame that still holds its
reservation goes to HOLDING and is handed to the answer window; one whose reservation was cancelled completes the
turnaround at once with the expiry answer. The request bytes of any other accepted QUERY, a REPLY_SLOT frame, are dropped
(R90). -/
def State.reachTurnaround (s : State) (p : PortId) (f : FrameRec) (v : ServiceRec) (last : Level) : State :=
  let g := { f with position := .turnaround }
  match v.hit, v.hit.bind (·.entry.action) with
  | some h, some .defer =>
    match v.reservation with
    | some r =>
      let x := s.port p
      let token := x.nextToken
      let q : QueryDetails :=
        { token, source := Header.source f.rxHeader, channel := f.channel.getD 0, length := v.expected, entry := h.index,
          ring := r }
      let t := s.setPort p
        { x with
          state := .holding, bckDriver := .drivenLow, bdaDriver := .drivenLow, bckLowSince := none, bdaLowSince := none,
          silenceSince := none, nextToken := token + 1,
          window := .waiting q (.ofByte h.entry.expiry) (s.timeBase + micros x.config.answerLimit),
          frame := some { g with bit := 0, held := true, service := some { v with reservation := none } } }
      t.handRecord r (waitingRecord p f v h token)
    | none => s.setFrame p { g with service := some { v with turnaround := some (.ofByte h.entry.expiry) } } last
  | _, _ => s.setFrame p { g with service := some { v with received := [] } } last

/-- After a slot that the serving port answered with ACCEPT, when `n` of the frame's bytes have been taken. -/
def State.afterAccept (s : State) (p : PortId) (f : FrameRec) (v : ServiceRec) (n : Nat) (last : Level) : State :=
  let t := s.driveBda p .drivenLow
  if n < v.expected then t.setFrame p { f with position := .byte n } last
  else if Header.frameKind f.rxHeader = .query then t.reachTurnaround p f v last
  else t.setFrame p { f with position := .done } last

/-- R30, R12: whether the header slot's reading shows that the frame goes on after the port's own REFUSE. -/
def goesOn (kind : FrameKind) (length : Nat) (reading : SlotReading) : Bool :=
  match kind with
  | .send => reading == .accept && 0 < length
  | .query => reading == .accept
  | .notice => reading != .absent && 0 < length

/-- R107, R114, R66: the initiator's slot on reply byte `n` is read. An ABORT pending at its end makes the closing follow, also
where the ABORT was taken while this slot was in progress (notes/assumptions/39.md). -/
def State.replySlotRead (s : State) (p : PortId) (f : FrameRec) (n : Nat) (reading : SlotReading) (last : Level) : State :=
  let abort :=
    match (s.port p).window with
    | .replying _ _ r => s.abortPending r
    | _ => false
  match reading with
  | .accept =>
    let g := { f with accepted := f.accepted + 1 }
    if f.reply.length ≤ n + 1 then (s.setFrame p { g with position := .done } last).driveBda p .released
    else if abort then (s.setFrame p { g with position := .closing } last).driveBda p .drivenLow
    else (s.setFrame p { g with position := .replyByte (n + 1) } last).driveBda p .released
  | .refuse | .absent => (s.setFrame p { f with position := .done } last).driveBda p .released

/-- R30, R31, R94, R107: an acknowledge slot ends at a serving port; `last` is the level of its verdict bit. -/
def State.servingSlot (s : State) (p : PortId) (f : FrameRec) (v : ServiceRec) (reading : SlotReading) (last : Level) :
    State :=
  match f.position with
  | .headerSlot =>
    if v.verdict = some .accept then s.afterAccept p f v 0 last
    else if goesOn (Header.frameKind f.rxHeader) v.expected reading then
      s.observeFrame p { f with position := f.sequel 0 } last
    else (s.setFrame p { f with position := .refused } last).driveBda p .released
  | .byteSlot n => s.afterAccept p f v (n + 1) last
  | .replyByte n | .replySlot n =>
    if f.overridden then s.setFrame p { f with position := f.observedSlot reading } last
    else s.replySlotRead p f n reading last
  | _ => s

/-- R12: an acknowledge slot ends and is read. -/
def execAcknowledgeSlot (p : PortId) (presence verdict : Level) (s : State) : Answer :=
  .next <| s.inFrame p fun x f =>
    let reading := readSlot presence verdict
    match x.state, f.turn, f.service with
    | .initiating, some r, _ =>
      match s.stagedOf r with
      | some y => s.initiatorSlot p f r y.desc reading verdict
      | none => s
    | .serving, _, some v => s.servingSlot p f v reading verdict
    | .observing, _, _ => s.setFrame p { f with position := f.observedSlot reading } verdict
    | _, _, _ => s

/-! ### Turnaround and reply -/

/-- R16, R14, R64: what the turnaround slot's reading leads to at the initiator. -/
def FrameRec.afterTurnaround (f : FrameRec) (reading : SlotReading) : FrameRec :=
  match reading with
  | .absent => f.close (some .framing)
  | .refuse => f.close (some .refused)
  | .accept => { f with position := .replyLength }

/-- R107, R114, R116: what the serving port gives at the turnaround: DECLINE, or the bytes of its reply. -/
def State.turnaroundReply (s : State) (p : PortId) (v : ServiceRec) : Option LatchedReply :=
  match v.turnaround with
  | some .empty => some (.reply [])
  | some .decline => some .decline
  | none =>
    match (s.port p).window with
    | .replying _ y _ => some y
    | _ => (s.snapshot p).map fun n => .reply n.data

/-- R16, R107, R114, R116: the turnaround slot ends. A serving port goes on as it has driven the slot. Where it has declined
and another station makes the slot read REPLY, it sends nothing and follows the frame (notes/assumptions/29.md). -/
def execTurnaroundSlot (p : PortId) (presence verdict : Level) (s : State) : Answer :=
  .next <| s.inFrame p fun x f =>
    let reading := readSlot presence verdict
    let seen : Position := if reading = .accept then .replyLength else .done
    match f.position, x.state, f.service with
    | .turnaround, .initiating, _ => s.initiatorGoes p (f.afterTurnaround reading) .released verdict
    | .turnaround, .serving, some v =>
      let g := { f with service := some { v with turnaround := none } }
      match s.turnaroundReply p v with
      | some .decline =>
        (s.setFrame p { g with position := seen, overridden := reading = .accept } verdict).driveBda p .released
      | some (.reply bytes) =>
        (s.setFrame p { g with position := .replyLength, reply := bytes } verdict).driveBda p .drivenLow
      | none => s
    | .refused, .serving, _ => s.observeFrame p { f with position := seen } verdict 1
    | .turnaround, .observing, _ => s.setFrame p { f with position := seen } verdict
    | _, _, _ => s

/-- R17: where the frame stands after the reply-length byte: a length of 0 or above 64 is an end point. -/
def afterReplyLength (length : Byte) : Position :=
  if length = 0 ∨ Config.maxLength < length.toNat then .done else .replyByte 0

/-- R17: what the reply-length byte leads to at the initiator. -/
def FrameRec.takeReplyLength (f : FrameRec) (length : Byte) : FrameRec :=
  let g := { f with replyLength := some length }
  if Config.maxLength < length.toNat then g.close (some .framing)
  else if length = 0 then g.close (some .success)
  else { g with position := .replyByte 0 }

/-- R17, R107, R2: the reply-length byte ends; the initiator and a port without a part in the reply take it, and a serving
port has sent it. -/
def execReplyLengthByte (p : PortId) (length : Byte) (s : State) : Answer :=
  .next <| s.inFrame p fun x f =>
    let last := levelOfBit (lastBit length)
    match f.position, x.state with
    | .replyLength, .initiating => s.initiatorGoes p (f.takeReplyLength length) x.bdaDriver last
    | .replyLength, .observing =>
      s.setFrame p { f with position := afterReplyLength length, replyLength := some length } last
    | .replyLength, .serving =>
      if f.overridden then
        s.setFrame p { f with position := afterReplyLength length, replyLength := some length } last
      else
        match s.sentByte x f with
        | some sent => s.byteSent p { f with position := afterReplyLength sent, replyLength := some sent } sent
        | none => s
    | _, _ => s

/-- R17, R14, R64: the initiator takes reply byte `n`, or drives REFUSE in the slot that follows: beyond its capacity,
after it has given up the frame, or with an abort pending. -/
def State.takeReplyByte (s : State) (p : PortId) (f : FrameRec) (r : SubId) (n : Nat) (byte : Byte) : State :=
  let g := { f with position := .replySlot n }
  let last := levelOfBit (lastBit byte)
  match s.execOf r with
  | none => s
  | some (x, e) =>
    if x.desc.replyCapacity ≤ n ∨ s.mustClose f then
      (s.setFrame p { g with refusing := true } last).driveBda p .released
    else ((s.setExec r x { e with replyArea := e.replyArea ++ [byte] }).setFrame p g last).driveBda p .released

/-- R16, R17, R107, R2: a reply byte ends; the initiator takes it, a port without a part in the reply follows it, and a
serving port has sent it. -/
def execReplyByte (p : PortId) (byte : Byte) (s : State) : Answer :=
  .next <| s.inFrame p fun x f =>
    match f.position, x.state, f.turn with
    | .replyByte n, .initiating, some r => s.takeReplyByte p f r n byte
    | .replyByte n, .observing, _ => s.setFrame p { f with position := .replySlot n } (levelOfBit (lastBit byte))
    | .replyByte n, .serving, _ =>
      if f.overridden then s.setFrame p { f with position := .replySlot n } (levelOfBit (lastBit byte))
      else
        match s.sentByte x f with
        | some sent => s.byteSent p { f with position := .replySlot n } sent
        | none => s
    | _, _, _ => s

/-- The port samples dominant at bit `bit`, counted from the first on the wire, of a byte that it is sending, and has left
that bit recessive (R11, R17). -/
def State.sentRecessive (s : State) (x : Port) (f : FrameRec) (bit : Fin 8) : Bool :=
  (s.sentByte x f).any fun b => b.getMsbD bit.val

/-- R17, R107, R2: a port sending as target samples dominant on a bit it left recessive. It releases BDA, drives nothing
more, and follows the frame to its end (notes/assumptions/36.md); after the engine's failure it is OFF (R42,
notes/assumptions/16.md). -/
def execOverridden (p : PortId) (s : State) (bit : Fin 8 := 0) : Answer :=
  .next <| s.inFrame p
    (fun x f =>
      if x.state = .serving ∧ s.sentRecessive x f bit then
        s.setPort p
          { x.clocked s.timeBase .dominant bit with
            bdaDriver := .released, frame := some { f with overridden := true, bit := bit.val } }
      else s)
    fun x f => if x.state = .serving ∧ s.sentRecessive x f bit then s.leavesFrame p else s

/-! ### Holds -/

/-- R4, R11, R12, R16, R17, R66: what the port drives on BDA in a bit of the byte or slot its frame is in, once BCK has fallen:
the bit of the byte that it sends; in a slot that it answers, presence dominant and then its verdict; and nothing in any
other, so that the sender of the byte before a slot has released BDA. In the header no row but ARBITRATION_LOSS names the
bit, and the driver stays as it is (notes/assumptions/17.md). It stays too in a turnaround slot whose answer is no longer
held, after the engine's failure (R42, notes/assumptions/16.md). -/
def State.bdaInBit (s : State) (p : PortId) (x : Port) (f : FrameRec) (bit : Fin 8) : Driver :=
  let slot := fun (accepts : Bool) => if bit = 0 ∨ accepts then Driver.drivenLow else .released
  match x.state, f.position, f.service with
  | .initiating, .replySlot _, _ => slot (!f.refusing)
  | .initiating, .closing, _ | .serving, .closing, _ => .drivenLow
  | .serving, .headerSlot, some v =>
    match v.verdict with
    | some .accept => slot true
    | some .refuse => slot false
    | some .noPresence | none => .released
  | .serving, .byteSlot _, _ => slot true
  | .serving, .turnaround, some v =>
    match s.turnaroundReply p v with
    | some .decline => slot false
    | some (.reply _) => slot true
    | none => x.bdaDriver
  | .arbitrating, _, _ => x.bdaDriver
  | _, _, _ =>
    match s.sentByte x f with
    | some byte => driverOfBit (byte.getMsbD bit.val)
    | none => .released

/-- R13, R21: BCK stays low in a bit of the frame, in which the port drives BDA as `bda` says. Its low time counts from its
fall (R3), and no low time of BDA counts from before that. -/
def Port.bckHeld (x : Port) (now : Time) (bit : Nat) (bda : Driver) : Port :=
  { x with
    bckLowSince := some (x.lastFall now bit), silenceSince := none, bdaDriver := bda,
    bdaLowSince := if bda = .drivenLow ∨ x.bdaLowSince.isSome then some (x.bdaLowAt now bit) else none }

/-- R13, R28: the port as initiator finds BCK low after it has released it, and measures the hold from now on, at any point
of the frame (notes/assumptions/30.md). Every other port counts it as time that BCK is low; a port that holds BCK itself
does not (R21). After the engine's failure an initiator that waits out a hold is OFF, and every other port that
drives on does so (R42); in the header the wait is another initiator's slower clock and no hold (R3). -/
def execHold (p : PortId) (s : State) (bit : Fin 8 := 0) : Answer :=
  let held := fun (x : Port) (f g : FrameRec) =>
    s.setPort p
      { x.bckHeld s.timeBase bit (s.bdaInBit p x f bit) with frame := some { g with bit := bit.val, held := true } }
  let found := fun (x : Port) (f : FrameRec) =>
    match x.state with
    | .initiating => held x f { f with holdSince := some s.timeBase }
    | .arbitrating | .observing | .serving => held x f f
    | _ => s
  .next <| s.inFrame p found fun x f => if x.state = .initiating then s.leavesFrame p else found x f

/-- R14, R28: the hold has lasted longer than the port's hold ceiling; the frame is given up. -/
def execHoldCeilingPassed (p : PortId) (s : State) : Answer :=
  .next <| s.event p <| s.onFrame fun x f =>
    if x.state = .initiating ∧ f.holdSince.isSome then
      ({ s with timeBase := dueAfter f.holdSince x.config.holdCeiling s.timeBase } : State).setPort p
        { x with frame := some { f with givenUp := true } }
    else s

/-! ### The ends of a frame -/

/-- R27, R53: the result that the attempt ends with at the closing: HOLD_TIMEOUT where the frame was given up, the result
of the sequence where the port's own closing followed it, none where that closing was at the point of an ABORT (R64), and
otherwise FRAMING, for a closing made by another station at no end point. -/
def FrameRec.closingResult (f : FrameRec) : Option AttemptResult :=
  if f.givenUp then some .holdTimeout else if f.position = .closing then f.result else some .framing

/-- R30, R95, R96, R114, R118: the frame of a serving port closes. It counts in frames_served where the port has decided
ACCEPT, also before the header slot in which it gives it (notes/assumptions/38.md). -/
def State.servingCloses (s : State) (p : PortId) (f : FrameRec) (v : ServiceRec) : State :=
  let t :=
    if v.verdict = some .accept then
      let t := s.count p .framesServed
      if f.position = .done then t.deliver p f v else t.endEarly p f
    else s
  (t.setPort p ((t.port p).toIdle (some s.timeBase))).setSnapshot p none

/-- R6, R7, R21: a closing is seen without a frame record: both lines are high, and the idle time counts from now. -/
def Port.seesClosing (x : Port) (now : Time) : Port :=
  { x with idleSince := some now, idleFull := false, bckLowSince := none, bdaLowSince := none }

/-- R6, R7, R37, R38: a recovering port sees a closing. Its own starts its idle gap, and another one in the gap starts the gap
anew. Between two pulses it ends BDA's low time alone, because the port's next pull takes the idle time away again, and
while BCK is low at the start of the procedure there is no closing (notes/assumptions/7.md). -/
def Port.closesInRecovery (x : Port) (now : Time) : Port :=
  match x.recovery with
  | some v =>
    match v.phase with
    | .waiting => x
    | .clocking => { x with bdaLowSince := none }
    | .closing | .releasing =>
      { x.seesClosing now with
        recovery := some { v with phase := .gap }, bckDriver := .released, bdaDriver := .released }
    | .gap => x.seesClosing now
  | none => x

/-- R6, R20, R26, R27, R29, R30, R38: BDA rises while BCK is high at the end of a byte or slot. A closing seen without a
frame record resets the idle time; a FAULTED port counts none, and its low times end (R21, notes/assumptions/7.md). -/
def execClosing (p : PortId) (s : State) : Answer :=
  let now := some s.timeBase
  .next <| s.event p (leaves := fun _ => s.leavesFrame p) fun x =>
    match x.state, x.frame with
    | .idle, _ => s.setPort p (x.seesClosing s.timeBase)
    | .recovering, _ => s.setPort p (x.closesInRecovery s.timeBase)
    | .faulted, _ => s.setPort p { x with bckLowSince := none, bdaLowSince := none }
    | .arbitrating, some f =>
      let t := s.setPort p (x.toIdle now)
      match f.turn with
      | some r => t.returnTurn r
      | none => t
    | .initiating, some f =>
      match f.turn with
      | some r => s.attemptOver p (x.toIdle now) r f.closingResult f.moved
      | none => s.setPort p (x.toIdle now)
    | .observing, some _ => s.setPort p (x.toIdle now)
    | .serving, some f =>
      match f.service with
      | some v => s.servingCloses p f v
      | none => s.setPort p (x.toIdle now)
    | _, _ => s

/-- R20: a frame breaks at a port. An initiator's deviation is a framing error on bits it does not drive; the port counts
frames_broken only as a receiver (R40). -/
def State.frameBreaks (s : State) (p : PortId) (x : Port) (f : FrameRec) (low : Option Time) : State :=
  match x.state, f.turn with
  | .arbitrating, some r => (s.setPort p (x.endFrame s.timeBase low)).returnTurn r
  | .initiating, some r =>
    s.attemptOver p (x.endFrame s.timeBase low) r (some (if f.givenUp then .holdTimeout else .framing)) f.moved
  | .arbitrating, none | .observing, _ | .serving, _ => s.receiverBreaks p f low
  | _, _ => s

/-- R20, R26, R29, R30: BDA rises inside a byte or slot (both lines are then high), or falls while BCK is high. -/
def execFrameBroken (p : PortId) (cause : BreakCause) (s : State) : Answer :=
  .next <| s.inFrame p fun x f =>
    s.frameBreaks p x f (if cause = .rise then none else some s.timeBase)

/-- R20: the silence time of a port that receives, where it runs: it does not while BCK is low. -/
def Port.receiverSilence (x : Port) (f : FrameRec) : Option Time :=
  match x.state, f.turn with
  | .arbitrating, none | .observing, _ | .serving, _ => x.silenceSince
  | _, _ => none

/-- R20: BCK has been high for 64 bit times. Silence breaks the frame for receivers; an initiator clocks its frame itself and
waits in its closing for BDA to rise (R6). -/
def execFrameSilence (p : PortId) (bda : Level) (s : State) : Answer :=
  .next <| s.inFrame p
    (fun x f =>
      match x.receiverSilence f with
      | some since =>
        let t := { s with timeBase := reach s.timeBase (since + micros (Config.silenceBits * x.config.rate.bitTime)) }
        t.receiverBreaks p f (lowFrom bda (x.bdaLowSince.getD since))
      | none => s)
    fun x f => if (x.receiverSilence f).isSome then s.leavesFrame p else s

/-- R11, R27: the port, sending a byte after the header, samples dominant where it drove recessive. Its attempt ends CLASH,
and it follows the frame with role OBSERVER, from the byte in progress on. In the slots of reply bytes there is no such
bit: presence is dominant, and the verdict is not compared (R12). It drives nothing more, so that after the engine's failure
it is OFF (R42, notes/assumptions/16.md). -/
def execClash (p : PortId) (s : State) (bit : Fin 8 := 0) : Answer :=
  .next <| s.inFrame p
    (fun x f =>
      match x.state, f.turn with
      | .initiating, some r =>
        if s.sentRecessive x f bit then
          let t := s.count p .clashes
          t.attemptOver p
            (((t.port p).clocked s.timeBase .dominant bit).toObserving { f with bit := bit.val, holdSince := none }) r
            (some .clash) f.moved
        else s
      | _, _ => s)
    fun x f => if x.state = .initiating ∧ s.sentRecessive x f bit then s.leavesFrame p else s

/-! ### Idle gap, stuck lines, recovery -/

/-- R7, R21: a line falls outside a frame without an opening: the idle time returns to 0, and the line's low time starts;
BDA's low time starts anew when BCK falls. A bus view that is FREE stays FREE (notes/assumptions/31.md). -/
def Port.lineFalls (x : Port) (line : Line) (now : Time) : Port :=
  match line with
  | .bck => { x.bckFalls now with idleSince := none, idleFull := false }
  | .bda => { x with idleSince := none, idleFull := false, bdaLowSince := some now }

/-- R7, R38: whether the port counts the idle gap: in IDLE, and in RECOVERING after its closing. -/
def Port.countsGap (x : Port) : Bool :=
  x.state == .idle || (x.state == .recovering && x.recovery.map Recovery.phase == some .gap)

/-- R7, R21: a line rises again outside a frame: its low time is over, and the idle time counts again once both lines are
high. -/
def Port.lineRises (x : Port) (line : Line) (now : Time) : Port :=
  let y := match line with
    | .bck => { x with bckLowSince := none }
    | .bda => { x with bdaLowSince := none }
  if x.countsGap ∧ y.bckLowSince = none ∧ y.bdaLowSince = none ∧ x.idleSince = none then
    { y with idleSince := some now, idleFull := false }
  else y

/-- R20, R21, R13: a line falls or rises within a frame, between two rows of the frame: its low time starts or ends, a fall of
BCK ends the silence time, and a rise of BCK starts it and ends a hold. -/
def Port.lineInFrame (x : Port) (line : Line) (moment : LineMoment) (now : Time) : Port :=
  match line, moment with
  | .bck, .falls =>
    { x.bckFalls now with silenceSince := none, frame := x.frame.map fun f => { f with held := false } }
  | .bck, .rises =>
    { x with
      bckLowSince := none, silenceSince := some now, frame := x.frame.map fun f => { f with holdSince := none } }
  | .bda, .falls => { x with bdaLowSince := some now }
  | .bda, .rises => { x with bdaLowSince := none }

/-- R37, R38, R21: a rise of BCK ends the wait of a recovering port at its start, and the first pulse begins, in which the port
pulls BCK low; and it ends that of its closing, where a quarter of a bit time later the port releases BDA, and the wait for
BDA counts from then. That quarter is counted in whole µs (notes/assumptions/7.md). -/
def Port.bckRisesInRecovery (x : Port) (now : Time) : Port :=
  match x.state, x.recovery with
  | .recovering, some v =>
    match v.phase with
    | .waiting => { x.bckFalls now with recovery := some (x.firstPulse now) }
    | .closing =>
      { x with
        recovery := some { v with phase := .releasing, waitSince := now + x.quarterBit },
        bckDriver := .released }
    | .clocking | .releasing | .gap => x
  | _, _ => x

/-- R7, R21: a line goes low without an opening, or is high again; within a frame, between two rows of the frame (R20). A port
that holds does not count its own hold (R21), and one that is OFF measures nothing (R2). After the engine's failure a
port that drives on to the end of its byte or slot goes on measuring, and goes on driving (R42). -/
def execLineGoesLow (p : PortId) (line : Line) (s : State) (moment : LineMoment := .falls) : Answer :=
  .next <| s.event p (leaves := s.onFrame fun x _ => s.setPort p (x.lineInFrame line moment s.timeBase)) fun x =>
    match x.state with
    | .idle | .recovering | .faulted =>
      s.setPort p
        (match line, moment with
         | _, .falls => x.lineFalls line s.timeBase
         | .bck, .rises => (x.lineRises .bck s.timeBase).bckRisesInRecovery s.timeBase
         | .bda, .rises => x.lineRises .bda s.timeBase)
    | .observing | .arbitrating | .initiating | .serving => s.setPort p (x.lineInFrame line moment s.timeBase)
    | .off | .holding => s

/-- R7, R38, R2: both lines have been high for the idle gap, which counts from the idle time's start. The idle time then stays
at the gap, and there is nothing more to reach. -/
def execIdleGap (p : PortId) (s : State) : Answer :=
  .next <| s.event p fun x =>
    match x.idleSince with
    | some start =>
      let t := { s with
        timeBase := reach s.timeBase (start + micros (Config.idleGapBits * x.config.rate.bitTime)) }
      let free := fun (y : Port) =>
        { y with
          busView := .free, bckLowSince := none, bdaLowSince := none, idleSince := some start, idleFull := true }
      match x.state with
      | .idle => if x.idleFull then s else t.setPort p (free x)
      | .recovering =>
        if x.recovery.map Recovery.phase = some .gap then t.recovered p (free (x.toIdle none)) else s
      | _ => s
    | none => s

/-- R36: a stuck condition hands over what the port was doing. -/
def State.handOverStuck (s : State) (p : PortId) (x : Port) : State :=
  match x.frame with
  | some f =>
    match x.state, f.turn with
    | .arbitrating, some r => s.stickTurn r
    | .initiating, some r => s.endAttempt r (some .busStuck) f.moved
    | .serving, _ => s.dropService p f .busStuck
    | _, _ => s
  | none => s

/-- R21: the moment from which a line's low time counts. Within a frame no row marks every fall, and the line has been low at
the earliest since the last one that did (notes/assumptions/7.md). -/
def Port.lowSince (x : Port) (line : Line) : Option Time :=
  (match line with
   | .bck => x.bckLowSince
   | .bda => x.bdaLowSince) <|> x.silenceSince

/-- R21: a line's low time is held from the moment it counts from. -/
def Port.holdsLow (x : Port) (line : Line) (now : Time) : Port :=
  match line with
  | .bck => x.bckLowFrom ((x.lowSince .bck).getD now)
  | .bda => { x with bdaLowSince := some ((x.lowSince .bda).getD now) }

/-- R36, R35, R56, R119: a line's low time passes the stuck limit. The port releases its lines, counts one in
stuck_events and goes to RECOVERING, or to OFF if a stop is pending. A port that holds, recovers or is FAULTED does not
act on it. Under a pending stop what the port was doing and the waiting descriptors complete together (R134). A port that
drives on after the engine's failure releases its lines and is OFF (R42). -/
def execStuckCondition (p : PortId) (line : Line) (s : State) : Answer :=
  .next <| s.event p (leaves := fun _ => s.leavesFrame p) fun x =>
    match x.state with
    | .idle | .observing | .arbitrating | .initiating | .serving =>
      let t := { s with timeBase := dueAfter (x.lowSince line) (1000 * x.config.stuckLimit) s.timeBase }
      let t := ((t.count p .stuckEvents).handOverStuck p x).setSnapshot p none
      if x.stopPending then (t.enterOff p).inRingOrder s
      else t.setPort p (((t.port p).holdsLow line t.timeBase).toRecovering t.timeBase)
    | .off | .holding | .recovering | .faulted => s

/-- R38, R39, R46, R47: recovery has failed; `x` is the port then. A RECOVER in progress completes, and the waiting
descriptors complete PORT_DOWN. -/
def State.recoveryFails (s : State) (p : PortId) (x : Port) : State :=
  ((s.setPort p x.toFaulted).endRecover p .portBusy).portDown p

/-- R37, R38: the moment at which recovery fails by a line, where it can fail by it: one stuck limit after the wait for the
line began, or after the line went low in the idle gap. In the closing BDA is released a quarter of a bit time after the
release of BCK, in whole µs (notes/assumptions/7.md), unless BCK rose later. BDA that is low at the 16th pulse fails it at
once. -/
def Port.recoveryLimit (x : Port) (v : Recovery) (line : Line) (now : Time) : Option Time :=
  let limit := micros (1000 * x.config.stuckLimit)
  match v.phase, line with
  | .clocking, .bda => if Config.maxPulses ≤ v.pulses + 1 then some now else none
  | .waiting, .bck | .clocking, .bck | .closing, .bck | .releasing, .bda => some (v.waitSince + limit)
  | .waiting, .bda | .releasing, .bck => none
  | .closing, .bda => some (v.waitSince + x.quarterBit + limit)
  | .gap, .bck => x.bckLowSince.map (· + limit)
  | .gap, .bda => x.bdaLowSince.map (· + limit)

/-- R21: the port as recovery fails by a line. A BCK that has not risen has been low since the port's own pull if no earlier
fall is known, and no low time of BDA counts from before that pull. Where the pulse or the closing waits for BDA, BCK has risen (R37, R38), and its low time is over; a BDA that is
low at a pulse has been low since BCK's fall. -/
def Port.failsBy (x : Port) (v : Recovery) (line : Line) (now : Time) : Port :=
  match line with
  | .bck =>
    match v.phase with
    | .clocking | .closing => x.bckLowFrom (x.bckLowSince.getD (v.waitSince - x.halfBit))
    | .waiting | .releasing | .gap => x
  | .bda =>
    match v.phase with
    | .clocking => { x with bckLowSince := none, bdaLowSince := some (x.bdaLowAt now) }
    | .closing => { x with bckLowSince := none }
    | .waiting | .releasing | .gap => x

/-- R37, R38: a recovery wait passes the stuck limit, or BDA is still low at the 16th pulse. -/
def execRecoveryFailed (p : PortId) (s : State) (line : Line := .bck) : Answer :=
  .next <| s.event p fun x =>
    match x.state, x.recovery with
    | .recovering, some v =>
      match x.recoveryLimit v line s.timeBase with
      | some due =>
        ({ s with timeBase := reach s.timeBase due } : State).recoveryFails p (x.failsBy v line s.timeBase)
      | none => s
    | _, _ => s

/-- R37, R38: a BCK pulse of the recovery procedure rises and BDA is sampled. With BDA high the closing begins, in which
the port pulls both lines low; with BDA low the next pulse follows, and at the 16th pulse recovery has failed. In either
case BCK is next released one bit time after this rise, and the wait for it counts from then. The pulse ends the wait for
BCK at the start of the procedure too. -/
def execClockPulse (p : PortId) (bda : Level) (s : State) : Answer :=
  .next <| s.event p fun x =>
    match x.state, x.recovery with
    | .recovering, some v =>
      if v.phase = .waiting ∨ v.phase = .clocking then
        let n := v.pulses + 1
        let waitSince := s.timeBase + micros x.config.rate.bitTime
        let pull := some (s.timeBase + x.halfBit)
        let pulled := { x with bckLowSince := pull, bdaLowSince := pull }
        let pulsed := if v.phase = .waiting then { x with bckLowSince := none } else x
        let low := { x with bckLowSince := none, bdaLowSince := some (pulsed.bdaLowAt s.timeBase) }
        match bda with
        | .recessive =>
          s.setPort p
            { pulled with
              recovery := some { phase := .closing, pulses := n, waitSince }, bckDriver := .drivenLow,
              bdaDriver := .drivenLow }
        | .dominant =>
          if Config.maxPulses ≤ n then s.recoveryFails p low
          else s.setPort p { pulled with recovery := some { phase := .clocking, pulses := n, waitSince } }
      else s
    | _, _ => s

end Sys2Proof.Machine
end

