-- ==== Sys2Proof/Machine/AnswerWindow.lean ====
section
/-!
DEFINITION. The meanings of the events of the answer windows (chapter 6).
-/
namespace Sys2Proof.Machine

/-- R113: the answer that the window latches. -/
def StagedXfer.answer (x : StagedXfer) : LatchedReply :=
  if x.desc.decline then .decline else .reply x.payload

/-- R113, R117: the window of the ring's bound port takes a staged ANSWER. It latches it and ends the hold if it waits
for the ANSWER's token; otherwise the ANSWER completes TOO_LATE. An ANSWER that the window has latched is not taken
again. -/
def execAnswerTaken (r : SubId) (s : State) (bck : Level := .recessive) : Answer :=
  .next <|
    match s.stagedOf r, (s.sub r).port with
    | some x, some p =>
      if s.live ∧ x.desc.kind = .answer ∧ s.latched r = false then
        let y := s.port p
        match y.window with
        | .waiting q _ _ =>
          if q.token = x.desc.token then s.setPort p { y.endHold s.timeBase bck with window := .replying q x.answer r }
          else s.completeAnswer r .tooLate 0
        | _ => s.completeAnswer r .tooLate 0
      else s
    | _, _ => s

/-- R116, R117: the answer limit expires in WAITING. -/
def execAnswerLimitExpiry (p : PortId) (s : State) (bck : Level := .recessive) : Answer :=
  .next <| s.event p fun x =>
    match x.window with
    | .waiting q expiry due =>
      ({ s with timeBase := reach s.timeBase due } : State).closeQuery p q expiry .expired bck
    | _ => s

end Sys2Proof.Machine
end

