-- ==== Sys2Proof/Machine/Dispatch.lean ====
section
/-! DEFINITION. The meaning of every command, one arm per row of spec/opcode_table.json. -/

namespace Sys2Proof.Machine

def exec (i : Instr) (s : State) : Host.Outcome State Fault Refusal :=
  match i with
  | .powerOn => Sys2Proof.Machine.execPowerOn s
  | .pcieLinkReset => Sys2Proof.Machine.execPcieLinkReset s
  | .functionLevelReset => Sys2Proof.Machine.execFunctionLevelReset s
  | .enable => Sys2Proof.Machine.execEnable s
  | .halt => Sys2Proof.Machine.execHalt s
  | .resume => Sys2Proof.Machine.execResume s
  | .clearNotes selection => Sys2Proof.Machine.execClearNotes selection s
  | .softReset => Sys2Proof.Machine.execSoftReset s
  | .unknownEngineCommand code => Sys2Proof.Machine.execUnknownEngineCommand code s
  | .setupAddressWrite high value => Sys2Proof.Machine.execSetupAddressWrite high value s
  | .post word => Sys2Proof.Machine.execPost word s
  | .ack word => Sys2Proof.Machine.execAck word s
  | .ignoredRegisterWrite word enables value => Sys2Proof.Machine.execIgnoredRegisterWrite word enables value s
  | .setupReadEnd read => Sys2Proof.Machine.execSetupReadEnd read s
  | .fetchStart ring => Sys2Proof.Machine.execFetchStart ring s
  | .slotReadEnd ring read => Sys2Proof.Machine.execSlotReadEnd ring read s
  | .payloadReadEnd ring read => Sys2Proof.Machine.execPayloadReadEnd ring read s
  | .unknownCommand => Sys2Proof.Machine.execUnknownCommand s
  | .createSubmissionRing => Sys2Proof.Machine.execCreateSubmissionRing s
  | .deleteSubmissionRing verdictBegun => Sys2Proof.Machine.execDeleteSubmissionRing verdictBegun s
  | .createCompletionRing => Sys2Proof.Machine.execCreateCompletionRing s
  | .deleteCompletionRing => Sys2Proof.Machine.execDeleteCompletionRing s
  | .setVector => Sys2Proof.Machine.execSetVector s
  | .createReceiveRing => Sys2Proof.Machine.execCreateReceiveRing s
  | .deleteReceiveRing => Sys2Proof.Machine.execDeleteReceiveRing s
  | .setPort => Sys2Proof.Machine.execSetPort s
  | .portControlStart bck bda => Sys2Proof.Machine.execPortControlStart s bck bda
  | .portControlStop bck => Sys2Proof.Machine.execPortControlStop s bck
  | .portControlRecover => Sys2Proof.Machine.execPortControlRecover s
  | .readPortStats => Sys2Proof.Machine.execReadPortStats s
  | .statsWriteEnd write => Sys2Proof.Machine.execStatsWriteEnd write s
  | .setMatch => Sys2Proof.Machine.execSetMatch s
  | .clearMatch => Sys2Proof.Machine.execClearMatch s
  | .setReply => Sys2Proof.Machine.execSetReply s
  | .setReplyReadEnd read => Sys2Proof.Machine.execSetReplyReadEnd read s
  | .clearReply => Sys2Proof.Machine.execClearReply s
  | .clearHealth => Sys2Proof.Machine.execClearHealth s
  | .readHealth => Sys2Proof.Machine.execReadHealth s
  | .healthWriteEnd write => Sys2Proof.Machine.execHealthWriteEnd write s
  | .abort verdictBegun => Sys2Proof.Machine.execAbort verdictBegun s
  | .schedulerChoice port opens => Sys2Proof.Machine.execSchedulerChoice port s opens
  | .opening port => Sys2Proof.Machine.execOpening port s
  | .arbitrationLoss port bit => Sys2Proof.Machine.execArbitrationLoss port bit s
  | .headerJudgement port wire => Sys2Proof.Machine.execHeaderJudgement port wire s
  | .channelByte port byte => Sys2Proof.Machine.execChannelByte port byte s
  | .headerVerdict port length => Sys2Proof.Machine.execHeaderVerdict port length s
  | .byteReceived port byte => Sys2Proof.Machine.execByteReceived port byte s
  | .acknowledgeSlot port presence verdict => Sys2Proof.Machine.execAcknowledgeSlot port presence verdict s
  | .turnaroundSlot port presence verdict => Sys2Proof.Machine.execTurnaroundSlot port presence verdict s
  | .replyLengthByte port length => Sys2Proof.Machine.execReplyLengthByte port length s
  | .replyByte port byte => Sys2Proof.Machine.execReplyByte port byte s
  | .clash port bit => Sys2Proof.Machine.execClash port s bit
  | .closing port => Sys2Proof.Machine.execClosing port s
  | .frameBroken port cause => Sys2Proof.Machine.execFrameBroken port cause s
  | .frameSilence port bda => Sys2Proof.Machine.execFrameSilence port bda s
  | .idleGap port => Sys2Proof.Machine.execIdleGap port s
  | .holdCeilingPassed port => Sys2Proof.Machine.execHoldCeilingPassed port s
  | .stuckCondition port line => Sys2Proof.Machine.execStuckCondition port line s
  | .recoveryFailed port line => Sys2Proof.Machine.execRecoveryFailed port s line
  | .answerTaken ring bck => Sys2Proof.Machine.execAnswerTaken ring s bck
  | .answerLimitExpiry port bck => Sys2Proof.Machine.execAnswerLimitExpiry port s bck
  | .deadlineExpiry ring => Sys2Proof.Machine.execDeadlineExpiry ring s
  | .replyStoreEnd ring write => Sys2Proof.Machine.execReplyStoreEnd ring write s
  | .completionWriteStart ring => Sys2Proof.Machine.execCompletionWriteStart ring s
  | .completionWriteEnd ring write => Sys2Proof.Machine.execCompletionWriteEnd ring write s
  | .receiveWriteStart ring => Sys2Proof.Machine.execReceiveWriteStart ring s
  | .receiveWriteEnd ring write => Sys2Proof.Machine.execReceiveWriteEnd ring write s
  | .coalescingTimer ring => Sys2Proof.Machine.execCoalescingTimer ring s
  | .messageWriteEnd vector write => Sys2Proof.Machine.execMessageWriteEnd vector write s
  | .clockPulse port bda => Sys2Proof.Machine.execClockPulse port bda s
  | .lineGoesLow port line moment => Sys2Proof.Machine.execLineGoesLow port line s moment
  | .hold port bit => Sys2Proof.Machine.execHold port s bit
  | .overridden port bit => Sys2Proof.Machine.execOverridden port s bit

end Sys2Proof.Machine
end

