-- ==== Sys2Proof/Machine/Step.lean ====
section
/-!
DEFINITION. One step of the block: the command at the front of the queue of waiting commands is executed on the state
with the queue's rest. With no command waiting, one microsecond of the time base passes (R177).
-/
namespace Sys2Proof.Machine

/-- R177: the time base advances by one every microsecond in every engine state, and wraps. -/
def State.tick (s : State) : State := { s with timeBase := s.timeBase + 1 }

/-- One step. -/
def step (s : State) : Host.Outcome State Fault Refusal :=
  match s.pending with
  | c :: rest => exec c { s with pending := rest }
  | [] => .next s.tick

/-- The state with the command that a word spells by the table's bits put at the front of its queue. The table of this
block gives no row bits, so that no word spells a command and the state is unchanged. -/
def State.withFetchWord (s : State) (nbits w : Nat) : State :=
  match decodeTableWord nbits w with
  | some c => { s with pending := c :: s.pending }
  | none => s

end Sys2Proof.Machine
end

