-- ==== Sys2Proof/Safety.lean ====
section
/-!
DEFINITION. What counts as a safe run of the TVB4410: the invariants that the rules state of the whole device, and the
terms in which the statements of Sys2Proof/Certificates speak of it (the administration command in progress, the
hand-over of a completion, a port without a pending stop).
-/
namespace Sys2Proof.Safety
open Sys2Proof.Machine

/-! ### Terms of the statements -/

/-- R178: ring 0 holds a command that has been decoded and not yet taken, in an engine state that carries commands
out. -/
abbrev Carries (s : State) (tag : BitVec 16) (cmd : AdminCmd) : Prop :=
  s.live = true ∧ s.admin = .fresh ∧ (s.sub 0).occupancy = .staged ∧ (s.sub 0).staged = some (.admin tag cmd) ∧
    (s.sub 0).completion = some 0

/-- R134: the state after a completion of ring `r` has joined the posting queue of completion ring `c`: the ring is
COMPLETING, and nothing else has changed. -/
def handedOver (s : State) (r : SubId) (c : CplId) (e : CplEntry) : State :=
  { s with
    subs := s.subs.set r { s.subs[r] with occupancy := .completing, reading := none, abortPending := false },
    cpls := s.cpls.set c { s.cpls[c] with queue := s.cpls[c].queue ++ [e] } }

/-- R134, R144: a completion of ring `r` whose bytes moved, attempts used, losses and result word are 0. -/
def plainEntry (s : State) (r : SubId) (tag : BitVec 16) (status : Status) : CplEntry :=
  { ring := r, tag, tagAbsent := false, release := (s.sub r).fetch, status, bytes := 0, attempts := 0, losses := 0,
    result := 0 }

/-- R179: the state after the command in progress, whose tag is `tag`, has ended with a status and a result word. -/
def commandEnds (s : State) (tag : BitVec 16) (status : Status) (result : Word32 := 0) : State :=
  { handedOver s 0 0 { plainEntry s 0 tag status with result } with admin := .idle }

/-- R176: the state after a rejected engine-word write: the note CMD_REJECTED is set, and nothing else has changed. -/
def commandRejected (s : State) : State := { s with notes := { s.notes with cmdRejected := true } }

/-- R146: an ACK of a ring with these parts is rejected. -/
def ackRejectedFor (s : State) (state : RingState) (size tail consumer index : Nat) : Prop :=
  s.live = false ∨ state = .absent ∨ size ≤ index ∨ ringDistance size tail consumer < ringDistance size index consumer

/-- R121, R141, R157: a power of two from 8 to 4096. -/
abbrev RingSize (n : Nat) : Prop := ∃ k, 3 ≤ k ∧ k ≤ 12 ∧ n = 2 ^ k

/-- R136, R154, R166, R173: a size and a base that a ring may have. -/
abbrev RingPlace (size : Nat) (base : Addr) : Prop := RingSize size ∧ base.toNat % 64 = 0

/-- R67: no ABORT waits for the descriptor of a ring to complete. -/
abbrev NoAbortWaits (s : State) (r : SubId) : Prop := ∀ status, s.admin ≠ .aborting r status

/-- R134: a submission ring whose completion has joined its posting queue. -/
def completing (k : SubRing) : SubRing := { k with occupancy := .completing, reading := none, abortPending := false }

/-- R46, R47, R134: what the submission rings bound to completion ring `c` hand to its posting queue, in increasing ring id,
where `entry` gives the completion of a ring that has one. -/
def handedInOrder (s : State) (c : CplId) (entry : SubId → Option CplEntry) : List CplEntry :=
  (List.finRange 32).filterMap fun r => if (s.sub r).completion = some c then entry r else none

/-- R47: no descriptor bound to the port is ELIGIBLE or HELD. -/
abbrev NoneWaits (s : State) (p : PortId) : Prop :=
  ∀ r, s.inState p r .eligible = false ∧ s.inState p r .held = false

/-- R61, R67: the state after a descriptor's completion, and that of the ABORT that waits for it where one does: `tag` is the
tag of that ABORT. -/
def completed (s : State) (r : SubId) (c : CplId) (e : CplEntry) (abort : Option (BitVec 16 × Status)) : State :=
  match abort with
  | none => handedOver s r c e
  | some (tag, status) => commandEnds (handedOver s r c e) tag status

/-- R67: whether an ABORT waits for the descriptor of a ring, with its tag and the status it completes with. -/
abbrev AbortWaits (s : State) (r : SubId) : Option (BitVec 16 × Status) → Prop
  | none => NoAbortWaits s r
  | some (tag, status) =>
    r ≠ 0 ∧ s.admin = .aborting r status ∧ (s.sub 0).occupancy = .staged ∧
      (∃ cmd, (s.sub 0).staged = some (.admin tag cmd)) ∧ (s.sub 0).completion = some 0

/-- R130: the checks that a transfer descriptor fails. -/
def failsChecks (d : Desc) : Prop :=
  (d.kind ≠ .marker ∧ 64 < d.outLength) ∨ (d.kind = .query ∧ (d.replyCapacity = 0 ∨ 64 < d.replyCapacity)) ∨
    ((d.kind = .send ∨ d.kind = .query) ∧ d.dest = 1023)

/-- R133: the state after a transfer descriptor has been staged, with an execution record or, for an ANSWER, without. -/
def stagedWith (s : State) (r : SubId) (d : Desc) (payload : List Byte) (e : Option ExecRec) : State :=
  s.setSub r
    { s.sub r with
      occupancy := .staged, reading := none, abortPending := false,
      staged := some (.xfer { desc := d, payload, time := s.timeBase, exec := e }) }

/-- R123: the state with an execution record in a ring's staged descriptor. -/
def withExec (s : State) (r : SubId) (y : StagedXfer) (e : ExecRec) : State :=
  s.setSub r { s.sub r with staged := some (.xfer { y with exec := some e }) }

/-- R44: an execution record at staging, in an execution state and with an effective limit. -/
def newRecord (state : ExecState) (limit : Nat) : ExecRec :=
  { state, limit, attempts := 0, losses := 0, deadlinePassed := false, lastResult := none, lastBytes := 0,
    replyArea := [] }

/-- R61, R144: the completion of a descriptor with its execution record's counts. -/
def execEntry (s : State) (r : SubId) (x : StagedXfer) (e : ExecRec) (status : Status) (bytes : Nat) : CplEntry :=
  { plainEntry s r x.desc.tag status with bytes, attempts := e.attempts, losses := e.losses }

/-- R51, R59, R65: the state after a turn that is over without a loss: the descriptor of a ring completes ABORTED or EXPIRED,
or is ELIGIBLE again. -/
def turnOver (s : State) (r : SubId) (c : CplId) (y : StagedXfer) (e : ExecRec) (abort : Option (BitVec 16 × Status)) :
    State :=
  if s.abortPending r = true then completed s r c (execEntry s r y e .aborted e.lastBytes) abort
  else if e.deadlinePassed = true then completed s r c (execEntry s r y e .expired e.lastBytes) abort
  else withExec s r y { e with state := .eligible }

/-- R115: a QUERY_CLOSED record. -/
def closedRecord (p : PortId) (q : QueryDetails) (reason : CloseReason) (now : Time) : RcvEntry :=
  { kind := .queryClosed, port := p, frameKind := .query, entry := q.entry, source := q.source, channel := q.channel,
    length := q.length, token := some q.token, reason := some reason, slot := none, timestamp := now, payload := [] }

/-- R118, R119: the state after an ANSWER whose reply was in progress has completed SUCCESS with the bytes accepted, and the
query has been reported closed. -/
def queryDropped (s : State) (p : PortId) (q : QueryDetails) (r : SubId) (c : CplId) (y : StagedXfer) (accepted : Nat)
    (reason : CloseReason) (abort : Option (BitVec 16 × Status)) : State :=
  (completed s r c { plainEntry s r y.desc.tag .success with bytes := accepted } abort).claimAtPosting q.ring
    (closedRecord p q reason s.timeBase)

/-- 1.1, R11: the level of the last bit of a byte, which is sent most significant bit first. -/
def lastLevel (byte : Byte) : Level := if byte.getLsbD 0 then .recessive else .dominant

/-- R12, 1.1: the last bit of the byte or slot that a port's frame is in: 1 in a slot, 7 in a byte. -/
def endBit (x : Port) : Nat :=
  match x.frame.map FrameRec.position with
  | some .headerSlot | some (.byteSlot _) | some .turnaround | some (.replySlot _) => 1
  | _ => 7

/-- R3, R21: the fall of BCK before its rise at `now`, in the bit `bit`: the one that BCK's low time counts from, unless HOLD has
named another bit for it, or else half a bit time before (notes/assumptions/7.md). -/
def lastFall (x : Port) (now : Time) (bit : Nat := endBit x) : Time :=
  let half := BitVec.ofNat 32 (x.config.rate.bitTime / 2)
  match x.bckLowSince with
  | some t => if ∃ f ∈ x.frame, f.held = true ∧ f.bit ≠ bit then now - half else t
  | none => now - half

/-- R21: a line has been low since `t`, as far as the port knows: since the fall that a row has marked, or within a frame since
the last rise of BCK before it (notes/assumptions/7.md). -/
abbrev LowSince (x : Port) (line : Line) (t : Time) : Prop :=
  let marked := match line with | .bck => x.bckLowSince | .bda => x.bdaLowSince
  marked = some t ∨ (marked = none ∧ x.silenceSince = some t)

/-- R36, R37, R39: the start of the recovery procedure at `now`: a wait for BCK where BCK is low, or else the first pulse,
which releases BCK half a bit time later. -/
def recoveryStart (x : Port) (now : Time) : Recovery :=
  if x.bckLowSince = none then
    { phase := .clocking, pulses := 0, waitSince := now + BitVec.ofNat 32 (x.config.rate.bitTime / 2) }
  else { phase := .waiting, pulses := 0, waitSince := now }

/-- R21: BDA's low time where BCK has been low since `fall`: it starts anew at that fall. -/
def lowAfterFall (low : Option Time) (fall : Time) : Option Time :=
  low.map fun t => if 2 ^ 31 ≤ (t - fall).toNat then fall else t

/-- R21: from when a BDA that is low at a rise of BCK counts: from BCK's fall, or from BDA's own where that is known to be
later. -/
def bdaLowAt (x : Port) (now : Time) (bit : Nat := endBit x) : Time :=
  (lowAfterFall x.bdaLowSince (lastFall x now bit)).getD (lastFall x now bit)

/-- R20, R21: the port after a rise of BCK at `now`, in a bit that BDA carries at a level. -/
def edgeSeen (x : Port) (now : Time) (last : Level) (bit : Nat := endBit x) : Port :=
  { x with
    bckLowSince := none, silenceSince := some now,
    bdaLowSince := if last = .dominant then some (bdaLowAt x now bit) else none }

/-- R2, R20: the state after a byte or slot has ended at a port whose frame goes on: its frame record and what it drives on
BDA have changed, the next byte or slot is at its first bit, and no hold is measured. -/
def frameAt (s : State) (p : PortId) (f : FrameRec) (bda : Driver) (last : Level) (bit : Nat := endBit (s.port p)) : State :=
  s.setPort p
    { edgeSeen (s.port p) s.timeBase last bit with frame := some { f with bit := 0, holdSince := none }, bdaDriver := bda }

/-- R6: the state of an initiator after a byte or slot that its closing follows: BDA is low from the fall of BCK half a bit
time later. -/
def closesAt (s : State) (p : PortId) (f : FrameRec) (last : Level) : State :=
  let x := s.port p
  s.setPort p
    { edgeSeen x s.timeBase last with
      frame := some { f with bit := 0, holdSince := none }, bdaDriver := .drivenLow,
      bdaLowSince := some (s.timeBase + BitVec.ofNat 32 (x.config.rate.bitTime / 2)) }

/-- R2, R6: the state of an initiator after a byte or slot, by whether its closing follows. -/
def goesAt (s : State) (p : PortId) (f : FrameRec) (bda : Driver) (last : Level) : State :=
  if f.position = .closing then closesAt s p f last else frameAt s p f bda last

/-- R19: the frame record of an initiator whose closing follows, and will report a result. -/
def closesWith (f : FrameRec) (res : AttemptResult) : FrameRec :=
  { f with position := .closing, result := some res }

/-- R87, R93: the state after a serving port has decided its header verdict, with the rest of its service record. -/
def verdictGiven (s : State) (p : PortId) (f : FrameRec) (v : ServiceRec) (length : Byte) (verdict : HeaderVerdict) :
    State :=
  let x := s.port p
  s.setPort p
    { edgeSeen x s.timeBase (lastLevel length) with
      frame := some { f with
        position := .headerSlot, bit := 0, holdSince := none, length := some length,
        service := some
          { v with verdict := some verdict, expected := length.toNat, verdictTime := some s.timeBase } },
      stats :=
        if verdict = .refuse then { x.stats with inboundRefused := x.stats.inboundRefused + 1 } else x.stats }

/-- R6, R27, R29, R30: a port whose frame has ended: it is IDLE with bus view BUSY, drives nothing, holds no frame record,
and counts its idle time from `idle`. -/
def idleAfter (x : Port) (idle : Option Time) : Port :=
  { x with
    state := .idle, bckDriver := .released, bdaDriver := .released, busView := .busy, idleSince := idle, idleFull := false,
    bckLowSince := none, bdaLowSince := none, silenceSince := none, frame := none, recovery := none }

/-- R34, R42: a port that has gone OFF, with its configuration, its counters and its next token kept. -/
def offAfter (x : Port) : Port :=
  { idleAfter x none with state := .off, stopPending := false, window := .none, leaving := false }

/-- R42: a port that drives on to the end of its byte, slot or closing when the engine fails: one in its frame, unless it waits
out a hold or has not made its opening yet (notes/assumptions/16.md). -/
abbrev DrivesOn (x : Port) : Prop :=
  (x.state = .arbitrating ∨ x.state = .initiating ∨ x.state = .serving) ∧
  ∃ f, x.frame = some f ∧ f.holdSince = none ∧ f.position ≠ .opening

/-- R36, R37, R39, R21: a port that starts the recovery procedure at `now`, with the low times going on: where BCK is not low the
port pulls it low, and BCK and a BDA that is low count from that fall. -/
def recovers (x : Port) (now : Time) : Port :=
  { idleAfter x none with
    state := .recovering, recovery := some (recoveryStart x now), bckLowSince := some (x.bckLowSince.getD now),
    bdaLowSince := if x.bckLowSince = none then x.bdaLowSince.map fun _ => now else x.bdaLowSince }

/-- R29: a port that follows a frame it takes no part in, from a byte's or slot's end at `now` on. -/
def observes (x : Port) (f : FrameRec) (now : Time) (last : Level) (bit : Nat := endBit x) : Port :=
  { edgeSeen x now last bit with
    state := .observing, bckDriver := .released, bdaDriver := .released, busView := .busy, idleSince := none,
    idleFull := false, frame := some { f with bit := 0, holdSince := none, role := .observer, turn := none, service := none },
    recovery := none }

/-- R5, R29: a port that has seen another station's opening at `now`. -/
def opened (x : Port) (now : Time) : Port :=
  { observes x .fresh now .recessive with bdaLowSince := some now }

/-- R25, R51: the frame record of a port that opens: an initiator at its first header bit. -/
def ownFrame (r : SubId) (header : Header) : FrameRec :=
  { role := .initiator, position := .header 0, bit := 0, rxHeader := header, channel := none, length := none,
    replyLength := none, turn := some r, moved := 0, result := none, holdSince := none, held := false, givenUp := false,
    refusing := false, service := none, reply := [], accepted := 0, overridden := false }

/-- R20, R21, R97: the state after a frame has broken at a receiving port that replies to no query. The idle time counts at
once, or is held at 0 where BDA is low; `low` says since when. -/
def frameBroke (s : State) (p : PortId) (f : FrameRec) (low : Option Time) : State :=
  let x := s.port p
  let t := s.release (f.service.bind (·.reservation))
  (t.setPort p
    { idleAfter x (if low = none then some s.timeBase else none) with
      bdaLowSince := low, stats := { x.stats with framesBroken := x.stats.framesBroken + 1 } }).setSnapshot p none

/-- R110: the answer window is REPLYING. -/
def isReplying : Window → Bool
  | .replying _ _ _ => true
  | .none | .waiting _ _ _ => false

/-- The engine is RUNNING or HALTED, in which happenings at ports are acted on and no entry into HALTED is to come (R60, R82,
R174), and no stop is pending on the port. -/
abbrev Plain (s : State) (p : PortId) : Prop :=
  (s.engine = .running ∨ s.engine = .halted) ∧ (s.port p).stopPending = false

/-- R174: what HALTING waits for has come: no port is ARBITRATING or INITIATING, and ring 0 is EMPTY. -/
abbrev Quiet (s : State) : Prop :=
  (∀ p, (s.port p).state ≠ .arbitrating ∧ (s.port p).state ≠ .initiating) ∧ (s.sub 0).occupancy = .empty

/-- The port at which a command is a happening on the bus or a timer, if it is one. -/
def happensAt : Instr → Option PortId
  | .opening p | .arbitrationLoss p _ | .headerJudgement p _ | .channelByte p _ | .headerVerdict p _ | .byteReceived p _
  | .acknowledgeSlot p _ _ | .turnaroundSlot p _ _ | .replyLengthByte p _ | .replyByte p _ | .clash p _ | .closing p
  | .frameBroken p _ | .frameSilence p _ | .idleGap p | .holdCeilingPassed p | .stuckCondition p _ | .recoveryFailed p _
  | .answerLimitExpiry p _ | .clockPulse p _ | .lineGoesLow p _ _ | .hold p _ | .overridden p _ => some p
  | _ => none

/-- R42: the port at which a row ends a byte or a slot of a frame, or the frame itself, or releases the lines at once (R36). -/
def endsPart : Instr → Option PortId
  | .headerJudgement p _ | .channelByte p _ | .headerVerdict p _ | .byteReceived p _ | .acknowledgeSlot p _ _
  | .turnaroundSlot p _ _ | .replyLengthByte p _ | .replyByte p _ | .closing p | .frameBroken p _ | .stuckCondition p _ =>
    some p
  | _ => none

/-- The port at which a row ends what a port drives, where it happens to it at all: a lost header bit, a clash or an overriding of
a bit that it has sent recessive (R10, R11, R17), and the silence of the frame that it receives (R20). -/
def mayEndPart : Instr → Option PortId
  | .arbitrationLoss p _ | .clash p _ | .overridden p _ | .frameSilence p _ => some p
  | _ => none

/-- The port at which a row marks an edge of a line or a hold within a byte or slot. -/
def withinPart : Instr → Option PortId
  | .lineGoesLow p _ _ | .hold p _ => some p
  | _ => none

/-- R182, R183: the commands that reset the device. -/
def resets : Instr → Bool
  | .powerOn | .pcieLinkReset | .functionLevelReset | .softReset => true
  | _ => false

/-! ### Invariants -/

/-- R169: the failure cause is NONE in every state except FAILED. -/
abbrev CauseMatches (s : State) : Prop := s.cause = .none ↔ s.engine ≠ .failed

/-- R68: at most 64 entries, never two with the same port and station, and counts of 0..15. -/
abbrev HealthBounded (s : State) : Prop :=
  s.health.length ≤ 64 ∧ (s.health.map fun e => (e.port, e.station)).Nodup ∧ ∀ e ∈ s.health, e.failed ≤ 15

/-- R44, R68, R144, R163: saturating counts stay within their maximum, in execution records, in completions that wait to
be written, in health entries and in lost counts. -/
abbrev CountsBounded (s : State) : Prop :=
  (∀ r : SubId, ∀ xe ∈ s.execOf r, xe.2.attempts ≤ 15 ∧ xe.2.losses ≤ 255) ∧
  (∀ c : CplId, ∀ e ∈ (s.cpl c).queue, e.attempts ≤ 15 ∧ e.losses ≤ 255) ∧
  (∀ e ∈ s.health, e.failed ≤ 15) ∧
  ∀ r : RcvId, (s.rcv r).lost ≤ 65535

/-- R121, R141, R157: a base that is a multiple of 64, a size that is a power of two from 8 to 4096, and two indices
inside the ring. -/
abbrev Placed (base : Addr) (size first second : Nat) : Prop :=
  base.toNat % 64 = 0 ∧ legalSize size = true ∧ first < size ∧ second < size

/-- R121, R122: every submission ring that is not ABSENT has its indices inside its slots. -/
abbrev SubmissionRingsPlaced (s : State) : Prop :=
  ∀ r : SubId, (s.sub r).state ≠ .absent →
    Placed (s.sub r).base (s.sub r).size (s.sub r).producer (s.sub r).fetch

/-- R157, R158, R142: in every ACTIVE receive ring the unconsumed records plus the reserved slots do not exceed the size
minus one. -/
abbrev ReceiveSlotsCovered (s : State) : Prop :=
  ∀ r : RcvId, (s.rcv r).state = .active →
    Placed (s.rcv r).base (s.rcv r).size (s.rcv r).tail (s.rcv r).consumer ∧
    (s.rcv r).unconsumed + (s.rcv r).reserved ≤ (s.rcv r).size - 1

/-- R123, R142: the number of submission rings that are FETCHING, STAGED or COMPLETING for a completion ring. -/
def claims (s : State) (c : CplId) : Nat :=
  (List.finRange 32).countP fun r => (s.sub r).completion == some c && (s.sub r).occupancy != .empty

/-- R123, R135: only a ring that exists, in an engine that has been enabled, is not EMPTY, and it names its completion
ring. -/
abbrev OccupiedRingsNamed (s : State) : Prop :=
  ∀ r : SubId, (s.sub r).occupancy ≠ .empty →
    (s.sub r).state ≠ .absent ∧ s.engine ≠ .disabled ∧ s.engine ≠ .starting ∧ (s.sub r).completion ≠ none

/-- R123, R142, R143: every completion ring covers the completions to come. A ring that is not EMPTY names an ACTIVE
completion ring; the posting queue holds exactly one entry for each ring that is COMPLETING; and in every ACTIVE ring the
reserved count is the number of rings with a claim, and the unconsumed records plus the reserved count do not exceed the
size minus one. -/
abbrev CreditsCovered (s : State) : Prop :=
  OccupiedRingsNamed s ∧
  (∀ r : SubId, (s.sub r).occupancy ≠ .empty → ∀ c ∈ (s.sub r).completion, (s.cpl c).state = .active) ∧
  (∀ c : CplId, ((s.cpl c).queue.map (·.ring)).Nodup ∧
    ∀ r : SubId, r ∈ (s.cpl c).queue.map (·.ring) ↔
      ((s.sub r).occupancy = .completing ∧ (s.sub r).completion = some c)) ∧
  ∀ c : CplId, (s.cpl c).state = .active →
    Placed (s.cpl c).base (s.cpl c).size (s.cpl c).tail (s.cpl c).consumer ∧
    (s.cpl c).reserved = claims s c ∧
    (s.cpl c).unconsumed + (s.cpl c).reserved ≤ (s.cpl c).size - 1

/-- R148: a ring's interrupt state keeps a count and a timer only while it is COUNTING, and the count is then below the
threshold. -/
abbrev IrqLawful (q : Irq) : Prop :=
  (1 ≤ q.threshold ∧ q.threshold ≤ 255) ∧
  (q.state ≠ .counting → q.count = 0 ∧ q.timer = none) ∧
  (q.state = .counting → 1 ≤ q.count ∧ q.count < q.threshold ∧ (q.timer = none ↔ q.delay = 0))

/-- R148, R165: of every completion ring and every receive ring. -/
abbrev CoalescingLawful (s : State) : Prop :=
  (∀ c : CplId, IrqLawful (s.cpl c).irq) ∧ ∀ r : RcvId, IrqLawful (s.rcv r).irq

/-- Both drivers of a port are RELEASED. -/
abbrev driversReleased (x : Port) : Prop := x.bckDriver = .released ∧ x.bdaDriver = .released

/-- R110: the answer window is WAITING. -/
def isWaiting : Window → Bool
  | .waiting _ _ _ => true
  | .none | .replying _ _ _ => false

/-- R23, R26, R31, R110: what a port's state fixes of its frame record, its role and its drivers; and the answer window
is WAITING exactly while the port is HOLDING. A port that has lost arbitration is ARBITRATING as a receiver. -/
def PortShape (x : Port) : Prop :=
  (match x.state, x.frame with
   | .off, none | .idle, none | .faulted, none => driversReleased x
   | .recovering, none => True
   | .observing, some f => driversReleased x ∧ f.role = .observer ∧ f.turn = none
   | .arbitrating, some f =>
     (f.role = .initiator ∧ f.turn ≠ none) ∨ (f.role = .observer ∧ f.turn = none ∧ driversReleased x)
   | .initiating, some f => f.role = .initiator ∧ f.turn ≠ none
   | .serving, some f => f.role = .target ∨ (f.role = .listener ∧ Header.frameKind f.rxHeader = .notice)
   | .holding, some f => x.bckDriver = .drivenLow ∧ x.bdaDriver = .drivenLow ∧ f.role = .target
   | _, _ => False) ∧
  (isWaiting x.window = true ↔ x.state = .holding)

/-- R23: of every port. -/
abbrev PortsShaped (s : State) : Prop := ∀ p : PortId, PortShape (s.port p)

/-- R25, R51: while the device works, a descriptor that is IN_ATTEMPT is the one whose turn the frame of its port is, so
that a port has at most one attempt on the bus. -/
abbrev OneAttempt (s : State) : Prop :=
  ∀ (p : PortId) (r : SubId), s.live = true → s.inState p r .inAttempt = true →
    ((s.port p).state = .arbitrating ∨ (s.port p).state = .initiating) ∧
    (s.port p).frame.bind (·.turn) = some r

end Sys2Proof.Safety
end

