-- ==== Sys2Proof/Certificates/Slice0/Obligations.lean ====
section
/-!
DEFINITION. The statements about the TVB4410 that are to be proved, one `def Obligations.<Name> : Prop` each. They come
from the numbered rules of spec/, file by file; OBLIGATIONS.json gives each its title, its rule or the sections it rests
on, and its tier. Where a statement says what a command leaves as it was, it gives the next state whole, as an update of
the state before.
-/
open Sys2Proof Sys2Proof.Machine Sys2Proof.Safety

/-! ### The queue of commands and the resets -/

/-- A step executes the command at the front of the queue on the state with the queue's rest. R177; that an empty
queue is one microsecond is the model's choice (notes/assumptions/2.md). -/
def Obligations.StepRunsFrontCommand : Prop :=
  (∀ (c : Instr) (rest : List Instr) (s : State), s.pending = c :: rest → step s = exec c { s with pending := rest }) ∧
  ∀ s : State, s.pending = [] → step s = .next { s with timeBase := s.timeBase + 1 }

/-- A command executes in every state to a next state, with an effect on everything but the queue: there is no fault and no
refusal. That the queue is left alone, by the resets and power-on too, is the model's choice (notes/assumptions/3.md); what
a command does whose conditions do not hold is notes/assumptions/5.md. -/
def Obligations.EveryCommandCompletes : Prop :=
  ∀ (c : Instr) (s : State), ∃ t, exec c s = .next t ∧ t.pending = s.pending

/-- R182, R183. That the queue of waiting commands, which is the model's own, survives a reset is the model's choice
(notes/assumptions/3.md). R2, R22, R32, R40, R48, R68, R83, R102, R110, R111, R121, R141, R151, R157, R169: what
power-on leaves. -/
def Obligations.ResetsRestoreStatedValues : Prop :=
  (∀ s : State,
    exec .powerOn s = .next { State.reset with pending := s.pending } ∧
    ∀ c : Instr, c = .softReset ∨ c = .pcieLinkReset ∨ c = .functionLevelReset →
      exec c s = .next { State.reset with setupAddress := s.setupAddress, pending := s.pending }) ∧
  (State.reset.engine = .disabled ∧ State.reset.cause = .none ∧ State.reset.setupAddress = 0 ∧
    State.reset.timeBase = 0 ∧ State.reset.setupRead = none ∧
    State.reset.notes = { postRejected := false, ackRejected := false, cmdRejected := false }) ∧
  (∀ p : PortId,
    let x := State.reset.port p
    x.state = .off ∧ x.stopPending = false ∧ x.bckDriver = .released ∧ x.bdaDriver = .released ∧ x.busView = .busy ∧
    x.frame = none ∧ x.window = .none ∧ x.nextToken = 0 ∧ statsBytes x.stats = List.replicate 36 0 ∧
    x.config.station = 0 ∧ x.config.rate = .k125 ∧ x.config.holdCeiling = 1000 ∧ x.config.answerLimit = 500 ∧
    x.config.patience = 16 ∧ x.config.barThreshold = 3 ∧ x.config.stuckLimit = 25 ∧
    State.reset.snapshot p = none ∧ ∀ q, State.reset.position p q = 0) ∧
  (∀ r : SubId,
    let k := State.reset.sub r
    k.state = .absent ∧ k.base = 0 ∧ k.size = 0 ∧ k.producer = 0 ∧ k.fetch = 0 ∧ k.port = none ∧ k.priority = none ∧
    k.completion = none ∧ k.occupancy = .empty ∧ k.staged = none ∧ k.abortPending = false) ∧
  (∀ c : CplId,
    let k := State.reset.cpl c
    k.state = .absent ∧ k.base = 0 ∧ k.size = 0 ∧ k.tail = 0 ∧ k.consumer = 0 ∧ k.phase = true ∧ k.reserved = 0 ∧
    k.queue = [] ∧ k.irq.vector = 0 ∧ k.irq.threshold = 1 ∧ k.irq.delay = 0 ∧ k.irq.state = .armed ∧
    k.irq.count = 0 ∧ k.irq.timer = none) ∧
  (∀ r : RcvId,
    let k := State.reset.rcv r
    k.state = .absent ∧ k.closing = false ∧ k.base = 0 ∧ k.size = 0 ∧ k.tail = 0 ∧ k.consumer = 0 ∧ k.phase = true ∧
    k.held = 0 ∧ k.queue = [] ∧ k.policy = .refuseWhenFull ∧ k.lost = 0 ∧ k.irq.vector = 0 ∧ k.irq.threshold = 1 ∧
    k.irq.delay = 0 ∧ k.irq.state = .armed ∧ k.irq.count = 0 ∧ k.irq.timer = none) ∧
  (∀ v : VecId,
    State.reset.vector v = { address := 0, data := 0, masked := true, pending := false }) ∧
  (∀ i : MatchId,
    (State.reset.entry i).valid = false ∧ (State.reset.entry i).ports = 0 ∧ (State.reset.entry i).kinds = 0 ∧
    (State.reset.entry i).channelValue = 0 ∧ (State.reset.entry i).channelMask = 0 ∧
    (State.reset.entry i).sourceValue = 0 ∧ (State.reset.entry i).sourceMask = 0 ∧
    (State.reset.entry i).notifyRing = none) ∧
  (∀ i : SlotId, State.reset.reply i = { loaded := false, data := [], oneShot := false }) ∧
  State.reset.health = []

/-! ### Engine control (chapter 10) and the register window (11.1) -/

/-- R173, R171. R174, R175, R171. R171, R176, 11.1: a command code that is none of the five is rejected in every
state; CLEAR_NOTES clears the selected notes and keeps the others. R60, R174: a happening at a port, and the end of a
completion record's write, do in HALTED and in HALTING what they do in RUNNING, and the engine is HALTED after the one that
brings about what HALTING waits for. -/
def Obligations.EngineCommandsByState : Prop :=
  (∀ s : State,
    (s.engine = .disabled → s.setupAddress.toNat % 64 = 0 →
      exec .enable s = .next { s with engine := .starting, setupRead := some s.setupAddress }) ∧
    (s.engine = .disabled → s.setupAddress.toNat % 64 ≠ 0 → exec .enable s = .next (s.fail .setupInvalid)) ∧
    (s.engine ≠ .disabled → exec .enable s = .next (commandRejected s))) ∧
  (∀ s : State,
    (s.engine = .running →
      ((∃ p, (s.port p).state = .arbitrating ∨ (s.port p).state = .initiating) ∨ (s.sub 0).occupancy ≠ .empty) →
      exec .halt s = .next { s with engine := .halting }) ∧
    (s.engine = .running → (∀ p, (s.port p).state ≠ .arbitrating ∧ (s.port p).state ≠ .initiating) →
      (s.sub 0).occupancy = .empty → exec .halt s = .next { s with engine := .halted }) ∧
    (s.engine ≠ .running → exec .halt s = .next (commandRejected s)) ∧
    (s.engine = .halting ∨ s.engine = .halted → exec .resume s = .next { s with engine := .running }) ∧
    (s.engine ≠ .halting → s.engine ≠ .halted → exec .resume s = .next (commandRejected s))) ∧
  (∀ s : State,
    (∀ code : BitVec 4, code.toNat = 0 ∨ 6 ≤ code.toNat →
      exec (.unknownEngineCommand code) s = .next (commandRejected s)) ∧
    ∀ selection : BitVec 3,
      exec (.clearNotes selection) s =
        .next
          { s with
            notes :=
              { postRejected := s.notes.postRejected && !selection.getLsbD 0,
                ackRejected := s.notes.ackRejected && !selection.getLsbD 1,
                cmdRejected := s.notes.cmdRejected && !selection.getLsbD 2 } }) ∧
  ∀ (c : Instr) (s t : State),
    (happensAt c).isSome = true ∨
      (∃ k, c = .completionWriteEnd k .ok ∧ (s.cpl k).queue ≠ [] ∧ (s.cpl k).writing ≠ none) →
    s.engine = .running → exec c s = .next t →
    exec c { s with engine := .halted } = .next { t with engine := .halted } ∧
    (Quiet t → exec c { s with engine := .halting } = .next { t with engine := .halted }) ∧
    (¬ Quiet t → exec c { s with engine := .halting } = .next { t with engine := .halting })

/-- R176: over every command, a note is set by the happening that its rule names, cleared by CLEAR_NOTES and by the
resets, and kept by everything else. -/
def Obligations.NotesChangeOnlyAsStated : Prop :=
  ∀ (c : Instr) (s t : State), c.wellFormed = true → exec c s = .next t →
    t.notes.postRejected =
      (match c with
       | .powerOn | .pcieLinkReset | .functionLevelReset | .softReset => false
       | .clearNotes selection => s.notes.postRejected && !selection.getLsbD 0
       | .post w =>
         s.notes.postRejected ||
           !(s.live && (s.sub (postRing w)).state == .active && postIndex w < (s.sub (postRing w)).size)
       | _ => s.notes.postRejected) ∧
    t.notes.ackRejected =
      (match c with
       | .powerOn | .pcieLinkReset | .functionLevelReset | .softReset => false
       | .clearNotes selection => s.notes.ackRejected && !selection.getLsbD 1
       | .ack w =>
         s.notes.ackRejected ||
           (match ackRing w with
            | .completion k =>
              !ackTaken s (s.cpl k).state (s.cpl k).size (s.cpl k).tail (s.cpl k).consumer (ackIndex w)
            | .receive k =>
              !ackTaken s (s.rcv k).state (s.rcv k).size (s.rcv k).tail (s.rcv k).consumer (ackIndex w))
       | _ => s.notes.ackRejected) ∧
    t.notes.cmdRejected =
      (match c with
       | .powerOn | .pcieLinkReset | .functionLevelReset | .softReset => false
       | .clearNotes selection => s.notes.cmdRejected && !selection.getLsbD 2
       | .enable => s.notes.cmdRejected || s.engine != .disabled
       | .halt => s.notes.cmdRejected || s.engine != .running
       | .resume => s.notes.cmdRejected || !(s.engine == .halting || s.engine == .halted)
       | .unknownEngineCommand _ => true
       | _ => s.notes.cmdRejected)

/-- R172: a write replaces its half in any engine state; ENABLE captures the whole address; no other command reads it or
changes it, but for power-on, which makes it 0. -/
def Obligations.SetupAddressKeptAndReadByEnable : Prop :=
  ∀ (s : State) (value : Word32),
    exec (.setupAddressWrite false value) s =
      .next { s with setupAddress := s.setupAddress.extractLsb' 32 32 ++ value } ∧
    exec (.setupAddressWrite true value) s =
      .next { s with setupAddress := value ++ s.setupAddress.extractLsb' 0 32 } ∧
    (∀ t, s.engine = .disabled → s.setupAddress.toNat % 64 = 0 → exec .enable s = .next t →
      t.setupRead = some s.setupAddress ∧ t.setupAddress = s.setupAddress) ∧
    (∀ t, exec .powerOn s = .next t → t.setupAddress = 0) ∧
    ∀ (c : Instr) (t : State) (a : Addr), c ≠ .enable → c ≠ .powerOn → (∀ high v, c ≠ .setupAddressWrite high v) →
      exec c s = .next t →
      t.setupAddress = s.setupAddress ∧ exec c { s with setupAddress := a } = .next { t with setupAddress := a }

/-- R124, 11.1, R184: a POST, judged by bits 4:0 and 27:16 alone. -/
def Obligations.PostTakenOrRejected : Prop :=
  ∀ (w : Word32) (s : State) (r : SubId) (i : Nat), r.val = w.toNat % 32 → i = w.toNat / 65536 % 4096 →
    (s.engine = .running ∨ s.engine = .halting ∨ s.engine = .halted → (s.sub r).state = .active → i < (s.sub r).size →
      exec (.post w) s = .next (s.setSub r { s.sub r with producer := i })) ∧
    ((s.engine ≠ .running ∧ s.engine ≠ .halting ∧ s.engine ≠ .halted) ∨ (s.sub r).state ≠ .active ∨
        (s.sub r).size ≤ i →
      exec (.post w) s = .next { s with notes := { s.notes with postRejected := true } })

/-- R146, R147, R148, R150, R165, 11.1: an ACK. `left` says whether a taken ACK leaves unconsumed records. -/
def Obligations.AckTakenOrRejected : Prop :=
  ∀ (w : Word32) (s : State) (i : Nat), i = w.toNat / 65536 % 4096 →
    (∀ c : CplId, w.toNat < 2 ^ 31 → c.val = w.toNat % 16 →
      let k := s.cpl c
      let left := 0 < ringDistance k.size k.tail i
      (ackRejectedFor s k.state k.size k.tail k.consumer i →
        exec (.ack w) s = .next { s with notes := { s.notes with ackRejected := true } }) ∧
      (¬ ackRejectedFor s k.state k.size k.tail k.consumer i →
        (left → k.irq.state ≠ .sent → exec (.ack w) s = .next (s.setCpl c { k with consumer := i })) ∧
        (left → k.irq.state = .sent →
          exec (.ack w) s = .next ((s.setCpl c { k with consumer := i }).sendMessage k.irq.vector)) ∧
        (¬ left → k.irq.state = .armed → exec (.ack w) s = .next (s.setCpl c { k with consumer := i })) ∧
        (¬ left → k.irq.state = .counting →
          exec (.ack w) s =
            .next (s.setCpl c { k with consumer := i, irq := { k.irq with state := .armed, count := 0, timer := none } })) ∧
        (¬ left → k.irq.state = .sent →
          exec (.ack w) s = .next (s.setCpl c { k with consumer := i, irq := { k.irq with state := .armed } })))) ∧
    (∀ r : RcvId, 2 ^ 31 ≤ w.toNat → r.val = w.toNat % 16 →
      let k := s.rcv r
      let left := 0 < ringDistance k.size k.tail i
      (ackRejectedFor s k.state k.size k.tail k.consumer i →
        exec (.ack w) s = .next { s with notes := { s.notes with ackRejected := true } }) ∧
      (¬ ackRejectedFor s k.state k.size k.tail k.consumer i →
        (left → k.irq.state ≠ .sent → exec (.ack w) s = .next (s.setRcv r { k with consumer := i })) ∧
        (left → k.irq.state = .sent →
          exec (.ack w) s = .next ((s.setRcv r { k with consumer := i }).sendMessage k.irq.vector)) ∧
        (¬ left → k.irq.state = .armed → exec (.ack w) s = .next (s.setRcv r { k with consumer := i })) ∧
        (¬ left → k.irq.state = .counting →
          exec (.ack w) s =
            .next (s.setRcv r { k with consumer := i, irq := { k.irq with state := .armed, count := 0, timer := none } })) ∧
        (¬ left → k.irq.state = .sent →
          exec (.ack w) s = .next (s.setRcv r { k with consumer := i, irq := { k.irq with state := .armed } }))))

/-- R184, 11.1: what a write of a word is taken as, by its own rule where it covers all four bytes; the writes that are
ignored; and what each word reads as. R171, R172, R124, R146: the fields of a written word, by which alone it is judged. That
a write with no byte enabled is one of those that cover fewer than four bytes is notes/assumptions/37.md. -/
def Obligations.RegisterWindowAccesses : Prop :=
  ∀ s : State,
    (∀ (word : Fin 8) (enables : BitVec 4) (value : Word32),
      enables ≠ 0xF ∨ word = 0 ∨ word = 1 ∨ word = 7 →
      exec (.ignoredRegisterWrite word enables value) s = .next s) ∧
    (∀ word enables value,
      let taken := registerCommand word enables value
      s.writeRegister word enables value = { s with pending := s.pending ++ [taken] } ∧ taken.wellFormed = true ∧
      (enables ≠ 0xF ∨ word = 0 ∨ word = 1 ∨ word = 7 → taken = .ignoredRegisterWrite word enables value)) ∧
    (∀ value : Word32,
      let code := value.toNat % 16
      let taken := registerCommand 2 0xF value
      (code = 1 → taken = .enable) ∧ (code = 2 → taken = .halt) ∧ (code = 3 → taken = .resume) ∧
      (code = 4 → taken = .clearNotes (BitVec.ofNat 3 (value.toNat / 256 % 8))) ∧ (code = 5 → taken = .softReset) ∧
      (code = 0 ∨ 6 ≤ code → taken = .unknownEngineCommand (BitVec.ofNat 4 code)) ∧
      registerCommand 3 0xF value = .setupAddressWrite false value ∧
      registerCommand 4 0xF value = .setupAddressWrite true value ∧
      registerCommand 5 0xF value = .post value ∧ registerCommand 6 0xF value = .ack value) ∧
    s.readWord 0 = 0x44100100 ∧ s.readWord 1 = 0x10102004 ∧
    ((s.readWord 2).extractLsb' 0 3).toNat = s.engine.code ∧ ((s.readWord 2).extractLsb' 4 3).toNat = s.cause.code ∧
    (s.readWord 2).getLsbD 8 = s.notes.postRejected ∧ (s.readWord 2).getLsbD 9 = s.notes.ackRejected ∧
    (s.readWord 2).getLsbD 10 = s.notes.cmdRejected ∧
    (s.readWord 2).getLsbD 3 = false ∧ (s.readWord 2).getLsbD 7 = false ∧ (s.readWord 2).extractLsb' 11 21 = 0 ∧
    s.readWord 3 = s.setupAddress.extractLsb' 0 32 ∧ s.readWord 4 = s.setupAddress.extractLsb' 32 32 ∧
    s.readWord 5 = 0 ∧ s.readWord 6 = 0 ∧ s.readWord 7 = 0 ∧
    ∀ word : Fin 8, ∀ i : Nat, i < 4 → s.readBytes word i 1 = [(s.readWord word).extractLsb' (8 * i) 8]

/-- R173, R156, 11.2: the end of the setup read. -/
def Obligations.SetupReadEndStartsEngine : Prop :=
  ∀ (s : State) (read : ReadEnd) (a : Addr),
    (s.engine = .starting → s.setupRead = some a → read = .fault →
      exec (.setupReadEnd read) s = .next (s.fail .setupFault)) ∧
    (∀ bytes, s.engine = .starting → s.setupRead = some a → read = .data bytes → bytes.length = 64 →
      let b := decodeSetup bytes
      (RingPlace b.adminSize b.adminBase → RingPlace b.completionSize b.completionBase → b.vector ≤ 15 →
        1 ≤ b.threshold → b.threshold ≤ 255 → ∀ v : VecId, v.val = b.vector →
        exec (.setupReadEnd read) s =
          .next
            { s with
              engine := .running, setupRead := none,
              subs := s.subs.set 0
                { state := .active, base := b.adminBase, size := b.adminSize, producer := 0, fetch := 0, port := none,
                  priority := none, completion := some 0, occupancy := .empty, reading := none, staged := none,
                  abortPending := false },
              cpls := s.cpls.set 0
                { state := .active, base := b.completionBase, size := b.completionSize, tail := 0, consumer := 0,
                  phase := true, reserved := 0, queue := [], writing := none,
                  irq := { vector := v, threshold := b.threshold, delay := b.delay, state := .armed, count := 0,
                           timer := none } } }) ∧
      (¬ (RingPlace b.adminSize b.adminBase ∧ RingPlace b.completionSize b.completionBase ∧ b.vector ≤ 15 ∧
          1 ≤ b.threshold ∧ b.threshold ≤ 255) →
        exec (.setupReadEnd read) s = .next (s.fail .setupInvalid))) ∧
    (s.engine ≠ .starting → exec (.setupReadEnd read) s = .next s)

/-- R180, R42: what every entry into FAILED does, that it is what the six causes lead to, and how a port that drives on leaves its
frame. That such a port keeps its state and its drivers, and is marked as leaving, until the row that ends its byte or slot (in
the header the judgement, whichever of its bytes was in progress) or after which it drives nothing more, and that a port
that has not made its opening yet is OFF at once, are the model's choices (notes/assumptions/16.md). In FAILED an edge of
a line, or a hold that a port does not wait out as initiator, acts on a port that drives on as it does while the device
works, and a row that is not of the frame's course, or that the port could not meet, has no effect. -/
def Obligations.EntryIntoFailed : Prop :=
  (∀ (s : State) (cause : FailureCause),
    let t := s.fail cause
    t.engine = .failed ∧ t.cause = cause ∧ t.admin = .idle ∧ t.setupRead = none ∧
    t = { s with engine := t.engine, cause := t.cause, admin := t.admin, setupRead := t.setupRead, ports := t.ports } ∧
    ∀ p : PortId,
      (DrivesOn (s.port p) → t.port p = { s.port p with leaving := true, stopPending := false, window := .none }) ∧
      (¬ DrivesOn (s.port p) → t.port p = offAfter (s.port p))) ∧
  (∀ s : State, s.live = true →
    ((s.sub 0).occupancy = .fetching → (s.sub 0).reading = some .slot →
      exec (.slotReadEnd 0 .fault) s = .next (s.fail .adminFetchFault)) ∧
    (∀ c e rest w, (s.cpl c).queue = e :: rest → (s.cpl c).writing = some w →
      exec (.completionWriteEnd c .fault) s = .next (s.fail .completionWriteFault)) ∧
    (∀ r e rest w, (s.rcv r).queue = e :: rest → (s.rcv r).writing = some w →
      exec (.receiveWriteEnd r .fault) s = .next (s.fail .receiveWriteFault)) ∧
    (∀ v before m after, s.messages = before ++ m :: after → (∀ x ∈ before, x.vector ≠ v) → m.vector = v →
      exec (.messageWriteEnd v .fault) s =
        .next (({ s with messages := before ++ after } : State).fail .messageWriteFault))) ∧
  ∀ (s : State) (p : PortId), s.engine = .failed →
    let x := s.port p
    let leaves := fun c : Instr => exec c s = .next ((s.setPort p (offAfter x)).setSnapshot p none)
    let working := { s with engine := .running }
    (x.leaving = false → ∀ c, happensAt c = some p → exec c s = .next s) ∧
    ∀ f, x.leaving = true → x.frame = some f →
      (x.state = .arbitrating ∨ x.state = .initiating ∨ x.state = .serving) →
      (∀ c, endsPart c = some p → leaves c) ∧
      (∀ c, mayEndPart c = some p →
        (exec c working = .next working → exec c s = .next s) ∧ (exec c working ≠ .next working → leaves c)) ∧
      (x.state = .initiating → ∀ bit, leaves (.hold p bit)) ∧
      (∀ c, withinPart c = some p → (x.state = .initiating → ∀ bit, c ≠ .hold p bit) →
        ∃ t, exec c working = .next t ∧ exec c s = .next { t with engine := .failed } ∧
          (t.port p).state = x.state ∧ (t.port p).leaving = true ∧ (t.port p).bckDriver = x.bckDriver ∧
          ((∀ bit, c ≠ .hold p bit) ∨ x.state = .arbitrating → (t.port p).bdaDriver = x.bdaDriver)) ∧
      ∀ c, happensAt c = some p → endsPart c = none → mayEndPart c = none → withinPart c = none → exec c s = .next s

/-- R169, R170, R181: the failure cause is NONE in every state except FAILED; nothing but a reset takes the engine out of
FAILED, and no other command changes anything there but a register write, and the port that still drives its frame, until it
goes OFF: its line measures, its driver of BDA and its frame record. When such a port goes OFF (notes/assumptions/16.md), and
that the time base moves in FAILED only where no command waits (notes/assumptions/2.md), are the model's choices. -/
def Obligations.FailedStaysFailed : Prop :=
  (∀ (c : Instr) (s t : State), s.engine = .failed → resets c = false → exec c s = .next t →
    t.engine = .failed ∧ t.cause = s.cause ∧ t.cpls = s.cpls ∧ t.rcvs = s.rcvs ∧ t.subs = s.subs ∧
    t.vectors = s.vectors ∧ t.messages = s.messages ∧ t.health = s.health ∧ t.entries = s.entries ∧
    t.replies = s.replies ∧ t.timeBase = s.timeBase ∧
    ∀ p : PortId,
      let x := s.port p
      let y := t.port p
      y = x ∨
        (x.leaving = true ∧
          (y = offAfter x ∨
            y = { x with
              bckLowSince := y.bckLowSince, bdaLowSince := y.bdaLowSince, silenceSince := y.silenceSince,
              bdaDriver := y.bdaDriver, frame := y.frame }))) ∧
  ∀ s t : State, CauseMatches s → step s = .next t → CauseMatches t

/-! ### Submission rings (chapter 7) -/

/-- R126, R127: when a fetch starts and what it reserves. -/
def Obligations.FetchStartReservesCredit : Prop :=
  ∀ (s : State) (r : SubId) (c : CplId), (s.sub r).completion = some c →
    let ready := (s.sub r).state = .active ∧ (s.sub r).occupancy = .empty ∧ (s.sub r).producer ≠ (s.sub r).fetch ∧
      s.engine = .running ∧ (s.cpl c).state = .active ∧
      (s.cpl c).unconsumed + (s.cpl c).reserved < (s.cpl c).size - 1
    (ready →
      exec (.fetchStart r) s =
        .next
          ((s.setSub r { s.sub r with occupancy := .fetching, reading := some .slot }).setCpl c
            { s.cpl c with reserved := (s.cpl c).reserved + 1 })) ∧
    (¬ ready → exec (.fetchStart r) s = .next s)

/-- R128 to R133, R138, R129, R178: the end of a slot read. R131, R138: the end of a payload read. -/
def Obligations.ReadEndsBringDescriptorToStaging : Prop :=
  (∀ (s : State) (r : SubId) (c : CplId) (bytes : List Byte), s.live = true → (s.sub r).occupancy = .fetching →
    (s.sub r).reading = some .slot → (s.sub r).completion = some c → bytes.length = 64 →
    let k := s.sub r
    let s1 := s.setSub r { k with fetch := (k.fetch + 1) % k.size }
    (r = 0 →
      exec (.slotReadEnd r (.data bytes)) s =
        .next
          { s.setSub 0
              { k with
                fetch := (k.fetch + 1) % k.size, occupancy := .staged, reading := none,
                staged := some (.admin (tagOf bytes) (decodeAdmin bytes)) } with
            admin := .fresh }) ∧
    (r ≠ 0 →
      exec (.slotReadEnd r .fault) s =
        .next
          (handedOver (s.setSub r { k with state := if k.state = .active then .faulted else k.state }) r c
            { plainEntry s r 0 .fetchFault with tagAbsent := true })) ∧
    (r ≠ 0 → decodeXfer bytes = none →
      exec (.slotReadEnd r (.data bytes)) s = .next (handedOver s1 r c (plainEntry s1 r (tagOf bytes) .badDescriptor))) ∧
    ∀ d, r ≠ 0 → decodeXfer bytes = some d →
      (failsChecks d →
        exec (.slotReadEnd r (.data bytes)) s = .next (handedOver s1 r c (plainEntry s1 r d.tag .badDescriptor))) ∧
      (¬ failsChecks d → d.kind = .marker →
        exec (.slotReadEnd r (.data bytes)) s = .next (handedOver s1 r c (plainEntry s1 r d.tag .success))) ∧
      (¬ failsChecks d → d.kind ≠ .marker → k.state = .draining →
        exec (.slotReadEnd r (.data bytes)) s = .next (handedOver s1 r c (plainEntry s1 r d.tag .aborted))) ∧
      (¬ failsChecks d → d.kind ≠ .marker → k.state ≠ .draining → 0 < d.outLength →
        ¬ (d.kind = .answer ∧ d.decline = true) →
        exec (.slotReadEnd r (.data bytes)) s = .next (s1.setSub r { s1.sub r with reading := some (.payload d) })) ∧
      (¬ failsChecks d → d.kind ≠ .marker → k.state ≠ .draining →
        (d.outLength = 0 ∨ (d.kind = .answer ∧ d.decline = true)) →
        exec (.slotReadEnd r (.data bytes)) s = .next (s1.stage r d []))) ∧
  ∀ (s : State) (r : SubId) (c : CplId) (d : Desc), s.live = true → (s.sub r).occupancy = .fetching →
    (s.sub r).reading = some (.payload d) → (s.sub r).completion = some c →
    exec (.payloadReadEnd r .fault) s = .next (handedOver s r c (plainEntry s r d.tag .fetchFault)) ∧
    ∀ bytes, bytes.length = d.outLength →
      ((s.sub r).state = .draining →
        exec (.payloadReadEnd r (.data bytes)) s = .next (handedOver s r c (plainEntry s r d.tag .aborted))) ∧
      ((s.sub r).state ≠ .draining → exec (.payloadReadEnd r (.data bytes)) s = .next (s.stage r d bytes))

/-- R133, R44, R45, R69, R76: staging, and the first consideration that follows it at once. -/
def Obligations.StagingConsidersAtOnce : Prop :=
  ∀ (s : State) (r : SubId) (p : PortId) (c : CplId) (d : Desc) (payload : List Byte),
    (s.sub r).port = some p → (s.sub r).completion = some c → (s.sub r).occupancy = .fetching → NoAbortWaits s r →
    let x := s.port p
    let asStaged := stagedWith s r d payload (some (newRecord .held d.attemptLimit))
    let own := stagedWith s r d payload (some (newRecord .eligible d.attemptLimit))
    let entry := (s.healthEntry p d.dest).map HealthEntry.state
    ((d.kind = .send ∨ d.kind = .query) → d.dest = x.config.station →
      s.stage r d payload = handedOver s r c (plainEntry s r d.tag .badDescriptor)) ∧
    (d.kind = .answer → s.stage r d payload = stagedWith s r d payload none) ∧
    ((d.kind = .notice ∨ ((d.kind = .send ∨ d.kind = .query) ∧ d.dest ≠ x.config.station)) →
      (x.state = .off ∨ x.state = .faulted →
        s.stage r d payload = handedOver asStaged r c (plainEntry asStaged r d.tag .portDown)) ∧
      (x.state = .recovering → s.stage r d payload = asStaged) ∧
      (x.state ≠ .off → x.state ≠ .faulted → x.state ≠ .recovering →
        (d.kind = .notice ∨ entry = none ∨ entry = some .good ∨ (entry = some .barred ∧ d.probe = true) →
          s.stage r d payload = own) ∧
        (d.kind ≠ .notice → entry = some .suspect →
          s.stage r d payload = stagedWith s r d payload (some (newRecord .eligible 1))) ∧
        (d.kind ≠ .notice → entry = some .barred → d.probe = false →
          s.stage r d payload = handedOver asStaged r c (plainEntry asStaged r d.tag .barred))))

/-- 11.2, 11.3, 11.4, R185: the fields of the setup block, of a transfer descriptor and of every administration descriptor,
read little-endian at their offsets; bytes and bits that no field names do not count. 11.1, 11.5: the numbers of the code
tables. -/
def Obligations.DescriptorLayoutsAndCodes : Prop :=
  (∀ bytes : List Byte,
    let b := fun i => (byteAt bytes i).toNat
    let half := fun i => b i + 256 * b (i + 1)
    let word := fun i => half i + 2 ^ 16 * half (i + 2)
    let long := fun i => word i + 2 ^ 32 * word (i + 4)
    (let k := decodeSetup bytes
     k.adminBase.toNat = long 0x00 ∧ k.adminSize = half 0x08 ∧ k.completionBase.toNat = long 0x10 ∧
     k.completionSize = half 0x18 ∧ k.vector = b 0x1A ∧ k.threshold = b 0x1B ∧ k.delay = half 0x1C) ∧
    ((decodeXfer bytes).isSome = true ↔ 1 ≤ b 0x02 ∧ b 0x02 ≤ 5) ∧
    (∀ d, decodeXfer bytes = some d →
      d.tag.toNat = half 0x00 ∧
      d.kind = (if b 0x02 = 1 then .marker else if b 0x02 = 2 then .send else if b 0x02 = 3 then .query
        else if b 0x02 = 4 then .notice else .answer) ∧
      (d.probe = true ↔ b 0x03 % 2 = 1) ∧ (d.decline = true ↔ b 0x03 / 2 % 2 = 1) ∧
      d.dest.toNat = half 0x04 % 1024 ∧ d.channel.toNat = b 0x06 ∧ d.outLength = b 0x07 ∧
      d.replyCapacity = b 0x08 ∧ d.attemptLimit = b 0x09 % 16 ∧ d.deadline = half 0x0A ∧
      d.token.toNat = half 0x0C ∧ d.outBuffer.toNat = long 0x10 ∧ d.replyBuffer.toNat = long 0x18) ∧
    (tagOf bytes).toNat = half 0x00 ∧
    (b 0x02 = 0x10 → ∀ base : Addr, base.toNat = long 0x10 →
      decodeAdmin bytes = .createSubmissionRing (b 0x04) (b 0x05) (b 0x06) (b 0x07) (half 0x08) base) ∧
    (b 0x02 = 0x11 → decodeAdmin bytes = .deleteSubmissionRing (b 0x04)) ∧
    (b 0x02 = 0x12 → ∀ base : Addr, base.toNat = long 0x10 →
      decodeAdmin bytes = .createCompletionRing (b 0x04) (b 0x05) (b 0x06) (half 0x08) (half 0x0A) base) ∧
    (b 0x02 = 0x13 → decodeAdmin bytes = .deleteCompletionRing (b 0x04)) ∧
    (b 0x02 = 0x14 → ∀ (data : Word32) (address : Addr), data.toNat = word 0x08 → address.toNat = long 0x10 →
      decodeAdmin bytes = .setVector (b 0x04) (b 0x05 % 2 == 1) data address) ∧
    (b 0x02 = 0x15 → ∀ base : Addr, base.toNat = long 0x10 →
      decodeAdmin bytes = .createReceiveRing (b 0x04) (b 0x05) (b 0x06) (b 0x07) (half 0x08) (half 0x0A) base) ∧
    (b 0x02 = 0x16 → decodeAdmin bytes = .deleteReceiveRing (b 0x04)) ∧
    (b 0x02 = 0x17 →
      decodeAdmin bytes =
        .setPort (b 0x04) (b 0x05) (half 0x06) (half 0x08) (half 0x0A) (b 0x0C) (b 0x0D) (b 0x0E)) ∧
    (b 0x02 = 0x18 → decodeAdmin bytes = .portControl (b 0x04) (b 0x05)) ∧
    (b 0x02 = 0x19 → ∀ buffer : Addr, buffer.toNat = long 0x10 →
      decodeAdmin bytes = .readPortStats (b 0x04) (b 0x05 % 2 == 1) buffer) ∧
    (b 0x02 = 0x1A →
      decodeAdmin bytes =
        .setMatch (b 0x04) (b 0x05) (BitVec.ofNat 4 (b 0x06)) (BitVec.ofNat 3 (b 0x07)) (byteAt bytes 0x08)
          (byteAt bytes 0x09) (byteAt bytes 0x0A) (byteAt bytes 0x0B) (byteAt bytes 0x0C) (b 0x0D % 2 == 1)
          (byteAt bytes 0x0E) (half 0x10) (half 0x12)) ∧
    (b 0x02 = 0x1B → decodeAdmin bytes = .clearMatch (b 0x04)) ∧
    (b 0x02 = 0x1C → ∀ buffer : Addr, buffer.toNat = long 0x10 →
      decodeAdmin bytes = .setReply (b 0x04) (b 0x05) (b 0x06 % 2 == 1) buffer) ∧
    (b 0x02 = 0x1D → decodeAdmin bytes = .clearReply (b 0x04)) ∧
    (b 0x02 = 0x1E → decodeAdmin bytes = .clearHealth (b 0x04) (b 0x05) (half 0x06)) ∧
    (b 0x02 = 0x1F → ∀ buffer : Addr, buffer.toNat = long 0x10 → decodeAdmin bytes = .readHealth buffer) ∧
    (b 0x02 = 0x20 → decodeAdmin bytes = .abort (b 0x04) (BitVec.ofNat 16 (half 0x06))) ∧
    (b 0x02 < 0x10 ∨ 0x20 < b 0x02 → decodeAdmin bytes = .unknown (byteAt bytes 0x02))) ∧
  [EngineState.disabled, .starting, .running, .halting, .halted, .failed].map EngineState.code = [0, 1, 2, 3, 4, 5] ∧
  [FailureCause.none, .setupFault, .setupInvalid, .adminFetchFault, .completionWriteFault, .receiveWriteFault,
    .messageWriteFault].map FailureCause.code = [0, 1, 2, 3, 4, 5, 6] ∧
  [Status.success, .truncated, .noTarget, .refused, .framing, .holdTimeout, .clash, .expired, .arbExhausted, .busStuck,
    .portDown, .barred, .storeFault, .aborted, .tooLate, .fetchFault, .badDescriptor, .badCommand, .badParameter, .inUse,
    .notFound, .portBusy].map Status.code = List.range 22 ∧
  [FrameKind.send, .query, .notice].map FrameKind.code = [2, 3, 4] ∧
  [RecordKind.frame, .queryWaiting, .queryClosed, .slotConsumed, .slotWritten].map RecordKind.code = [1, 2, 3, 4, 5] ∧
  [CloseReason.expired, .portStopped, .withdrawn, .busStuck].map CloseReason.code = [1, 2, 3, 4] ∧
  [HealthState.suspect, .barred, .good].map HealthState.code = [1, 2, 3] ∧
  (∀ n : Nat, Action.ofCode n =
    if n = 1 then some .deliver else if n = 2 then some .replySlot else if n = 3 then some .slotWrite
    else if n = 4 then some .defer else if n = 5 then some .refuse else none) ∧
  (∀ n : Nat, Rate.ofCode n =
    if n = 0 then some .k125 else if n = 1 then some .k250 else if n = 2 then some .k500 else if n = 3 then some .k1000
    else none) ∧
  ∀ n : Nat, FullPolicy.ofCode n =
    if n = 0 then some .refuseWhenFull else if n = 1 then some .discardWhenFull else none

/-- R136, R178: creating a submission ring, and a command that ring 0 carries and the device does not know. -/
def Obligations.CreateSubmissionRingChecks : Prop :=
  ∀ (s : State) (tag : BitVec 16),
    (∀ code, Carries s tag (.unknown code) → exec .unknownCommand s = .next (commandEnds s tag .badCommand)) ∧
    ∀ ring port priority completion size base,
      Carries s tag (.createSubmissionRing ring port priority completion size base) →
      let bad : Prop := exec .createSubmissionRing s = .next (commandEnds s tag .badParameter)
      (ring = 0 ∨ 31 < ring → bad) ∧
      ∀ r : SubId, r.val = ring → ring ≠ 0 →
        ((s.sub r).state ≠ .absent → exec .createSubmissionRing s = .next (commandEnds s tag .inUse)) ∧
        ((s.sub r).state = .absent → ¬ RingPlace size base → bad) ∧
        ((s.sub r).state = .absent → (3 < port ∨ 7 < priority ∨ 15 < completion) → bad) ∧
        (∀ c : CplId, c.val = completion → (s.sub r).state = .absent → (s.cpl c).state = .absent → bad) ∧
        (∀ (p : PortId) (q : Fin 8) (c : CplId), p.val = port → q.val = priority → c.val = completion →
          (s.sub r).state = .absent → RingPlace size base → (s.cpl c).state = .active →
          exec .createSubmissionRing s =
            .next
              (commandEnds
                (s.setSub r
                  { state := .active, base, size, producer := 0, fetch := 0, port := some p, priority := some q,
                    completion := some c, occupancy := .empty, reading := none, staged := none, abortPending := false })
                tag .success (BitVec.ofNat 32 ring)))

/-- R137, R138, R139, R64, R66: deleting a submission ring that has nothing to wait for, or that must first bring its last
fetched descriptor to an end. -/
def Obligations.DeleteSubmissionRingDrains : Prop :=
  ∀ (s : State) (tag : BitVec 16) (ring : Nat) (begun : Bool), Carries s tag (.deleteSubmissionRing ring) →
    (ring = 0 ∨ 31 < ring → exec (.deleteSubmissionRing begun) s = .next (commandEnds s tag .badParameter)) ∧
    ∀ r : SubId, r.val = ring → ring ≠ 0 →
      let k := s.sub r
      let draining : State :=
        { s.setSub r { k with state := .draining, producer := k.fetch } with admin := .deletingSub r }
      let aborting : State :=
        { s.setSub r { k with state := .draining, producer := k.fetch, abortPending := true } with
          admin := .deletingSub r }
      (k.state = .absent → exec (.deleteSubmissionRing begun) s = .next (commandEnds s tag .notFound)) ∧
      (k.state = .active ∨ k.state = .faulted → k.occupancy = .empty →
        exec (.deleteSubmissionRing begun) s = .next (commandEnds (s.setSub r .reset) tag .success)) ∧
      (k.state = .faulted → k.occupancy ≠ .empty →
        exec (.deleteSubmissionRing begun) s = .next { s with admin := .deletingSub r }) ∧
      (k.state = .active → k.occupancy = .fetching ∨ k.occupancy = .completing →
        exec (.deleteSubmissionRing begun) s = .next draining) ∧
      (∀ x e p c, k.state = .active → s.execOf r = some (x, e) → k.port = some p → k.completion = some c →
        e.state = .held ∨ e.state = .eligible →
        exec (.deleteSubmissionRing begun) s =
          .next (handedOver draining r c (execEntry draining r x e .aborted e.lastBytes))) ∧
      (∀ x e, k.state = .active → s.execOf r = some (x, e) → e.state = .storing →
        exec (.deleteSubmissionRing begun) s = .next draining) ∧
      (∀ x e p, k.state = .active → s.execOf r = some (x, e) → e.state = .inAttempt → k.port = some p →
        (begun = true ∨ (∀ f n, (s.port p).frame = some f → f.turn = some r → f.position ≠ .replySlot n) →
          exec (.deleteSubmissionRing begun) s = .next aborting) ∧
        ∀ f n, begun = false → (s.port p).frame = some f → f.turn = some r → f.position = .replySlot n →
          exec (.deleteSubmissionRing begun) s =
            .next (aborting.setPort p { s.port p with frame := some { f with refusing := true } })) ∧
      ∀ x c, k.state = .active → s.stagedOf r = some x → x.exec = none → k.completion = some c →
        (s.latched r = false →
          exec (.deleteSubmissionRing begun) s =
            .next (handedOver draining r c (plainEntry draining r x.desc.tag .aborted))) ∧
        (s.latched r = true → exec (.deleteSubmissionRing begun) s = .next aborting)

/-- R63, R64, R66, R67: ABORT, by what it finds. In the slot of a reply byte whose verdict bit has not begun, the port
refuses the byte. R67: an ABORT that waits completes after the descriptor it found, whatever that descriptor's status. -/
def Obligations.AbortByWhatItFinds : Prop :=
  (∀ (s : State) (tag : BitVec 16) (ring : Nat) (named : BitVec 16) (begun : Bool), Carries s tag (.abort ring named) →
    (ring = 0 ∨ 31 < ring → exec (.abort begun) s = .next (commandEnds s tag .badParameter)) ∧
    ∀ r : SubId, r.val = ring → ring ≠ 0 →
      let k := s.sub r
      let aborting : State := { s.setSub r { k with abortPending := true } with admin := .aborting r .success }
      (k.state = .absent → exec (.abort begun) s = .next (commandEnds s tag .notFound)) ∧
      (s.stagedOf r = none → exec (.abort begun) s = .next (commandEnds s tag .notFound)) ∧
      ∀ x p c, k.state ≠ .absent → s.stagedOf r = some x → k.port = some p → k.completion = some c →
        (x.desc.tag ≠ named → exec (.abort begun) s = .next (commandEnds s tag .notFound)) ∧
        (x.desc.tag = named → ∀ e, x.exec = some e → e.state = .held ∨ e.state = .eligible →
          exec (.abort begun) s =
            .next (commandEnds (handedOver s r c (execEntry s r x e .aborted e.lastBytes)) tag .success)) ∧
        (x.desc.tag = named → ∀ e, x.exec = some e → e.state = .storing →
          exec (.abort begun) s = .next { s with admin := .aborting r .notFound }) ∧
        (x.desc.tag = named → ∀ e, x.exec = some e → e.state = .inAttempt →
          (begun = true ∨ (∀ f n, (s.port p).frame = some f → f.turn = some r → f.position ≠ .replySlot n) →
            exec (.abort begun) s = .next aborting) ∧
          ∀ f n, begun = false → (s.port p).frame = some f → f.turn = some r → f.position = .replySlot n →
            exec (.abort begun) s =
              .next (aborting.setPort p { s.port p with frame := some { f with refusing := true } })) ∧
        (x.desc.tag = named → x.exec = none → s.latched r = false →
          exec (.abort begun) s =
            .next (commandEnds (handedOver s r c (plainEntry s r x.desc.tag .aborted)) tag .success)) ∧
        (x.desc.tag = named → x.exec = none → s.latched r = true → exec (.abort begun) s = .next aborting)) ∧
  ∀ (s : State) (r : SubId) (c : CplId) (d : Done) (tag : BitVec 16) (status : Status),
    AbortWaits s r (some (tag, status)) → (s.sub r).completion = some c →
    (s.sub r).occupancy = .fetching ∨ (s.sub r).occupancy = .staged →
    s.complete r d =
      commandEnds
        (handedOver s r c
          { ring := r, tag := d.tag, tagAbsent := d.tagAbsent, release := (s.sub r).fetch, status := d.status,
            bytes := d.bytes, attempts := d.attempts, losses := d.losses, result := d.result })
        tag status

/-! ### Deadlines and stores (chapter 3) -/

/-- R58, R177: the deadline of a descriptor, by its execution state. That the time base has then reached the deadline
is the model's way of taking a timed happening (notes/assumptions/6.md). R57, R62, R74, R76: the end of a reply store; that
the entry of a target whose number SET_PORT has since given to the port itself stays as it is, is read from R76 against R74
(notes/assumptions/33.md). R67: an ABORT that waits for the descriptor completes after it. -/
def Obligations.DeadlinesAndStoresByState : Prop :=
  (∀ (s : State) (r : SubId) (p : PortId) (c : CplId) (x : StagedXfer) (e : ExecRec) (abort : Option (BitVec 16 × Status)),
    s.live = true → s.execOf r = some (x, e) → (s.sub r).port = some p → (s.sub r).completion = some c →
    AbortWaits s r abort → x.desc.deadline ≠ 0 → e.deadlinePassed = false → s.timeBase = x.time + micros (1000 * x.desc.deadline) →
    (e.state = .held ∨ e.state = .eligible →
      exec (.deadlineExpiry r) s = .next (completed s r c (execEntry s r x e .expired e.lastBytes) abort)) ∧
    (e.state = .inAttempt →
      exec (.deadlineExpiry r) s =
        .next
          (s.setSub r
            { s.sub r with staged := some (.xfer { x with exec := some { e with deadlinePassed := true } }) })) ∧
    (e.state = .storing → exec (.deadlineExpiry r) s = .next s)) ∧
  ∀ (s : State) (r : SubId) (p : PortId) (c : CplId) (x : StagedXfer) (e : ExecRec) (res : AttemptResult)
    (abort : Option (BitVec 16 × Status)), s.live = true →
    s.execOf r = some (x, e) → e.state = .storing → (s.sub r).port = some p → (s.sub r).completion = some c →
    AbortWaits s r abort → x.desc.kind = .query → e.lastResult = some res →
    let own := x.desc.dest = (s.port p).config.station
    (res = .success ∨ res = .truncated → s.healthEntry p x.desc.dest = none ∨ own →
      exec (.replyStoreEnd r .ok) s = .next (completed s r c (execEntry s r x e res.status e.lastBytes) abort)) ∧
    (res = .success ∨ res = .truncated → s.healthEntry p x.desc.dest ≠ none → ¬ own →
      exec (.replyStoreEnd r .ok) s =
        .next (completed (s.targetSuccess p x.desc.dest) r c (execEntry s r x e res.status e.lastBytes) abort)) ∧
    exec (.replyStoreEnd r .fault) s = .next (completed s r c (execEntry s r x e .storeFault 0) abort)

/-! ### Completion rings, vectors and coalescing (chapter 8) -/

/-- R143, R144, 11.6, R185: the record at the head of the queue begins its write at the tail, with the ring's phase and
the time base. -/
def Obligations.CompletionWriteStartFixesRecord : Prop :=
  ∀ (s : State) (c : CplId) (e : CplEntry) (rest : List CplEntry), s.live = true → (s.cpl c).queue = e :: rest →
    (s.cpl c).writing = none →
    ∃ bytes : List Byte,
      exec (.completionWriteStart c) s =
        .next
          (s.setCpl c
            { s.cpl c with
              writing := some { address := (s.cpl c).base + BitVec.ofNat 64 (32 * (s.cpl c).tail), bytes } }) ∧
      bytes.length = 32 ∧
      le16At bytes 0x00 = e.tag ∧ (byteAt bytes 0x02).toNat = e.status.code ∧ (byteAt bytes 0x03).toNat = e.ring.val ∧
      (e.release < 65536 → (le16At bytes 0x04).toNat = e.release) ∧ (e.bytes < 256 → (byteAt bytes 0x06).toNat = e.bytes) ∧
      (e.attempts < 16 → (byteAt bytes 0x07).toNat = e.attempts) ∧ le32At bytes 0x08 = e.result ∧
      le32At bytes 0x0C = s.timeBase ∧ (e.losses < 256 → (byteAt bytes 0x10).toNat = e.losses) ∧
      (∀ i, 0x11 ≤ i → i ≤ 0x1E → byteAt bytes i = 0) ∧
      (byteAt bytes 0x1F).toNat = (s.cpl c).phase.toNat + 2 * e.tagAbsent.toNat

/-- R143, R134, R148: a completion record has been written for a ring that is not being deleted, in RUNNING or HALTED. R138,
R139, R179: the record of a ring that is being deleted has been written: the ring becomes ABSENT, and the deletion
completes. -/
def Obligations.CompletionWriteEndReleasesRing : Prop :=
  (∀ (s : State) (c : CplId) (e : CplEntry) (rest : List CplEntry) (w : DmaWrite),
    s.engine = .running ∨ s.engine = .halted → (s.cpl c).queue = e :: rest → (s.cpl c).writing = some w →
    s.admin ≠ .deletingSub e.ring → (s.sub e.ring).state ≠ .draining →
    let k := s.cpl c
    let q := k.irq.posted s.timeBase
    let phase := if (k.tail + 1) % k.size = 0 then !k.phase else k.phase
    exec (.completionWriteEnd c .ok) s =
      .next
        (((s.setCpl c
            { k with
              queue := rest, writing := none, reserved := k.reserved - 1, tail := (k.tail + 1) % k.size, phase,
              irq := q.1 }).setSub e.ring
          { s.sub e.ring with occupancy := .empty, reading := none, staged := none, abortPending := false }).sendIf q.2
          k.irq.vector)) ∧
  ∀ (s : State) (c : CplId) (e : CplEntry) (rest : List CplEntry) (w : DmaWrite) (tag : BitVec 16) (cmd : AdminCmd),
    s.engine = .running ∨ s.engine = .halted → (s.cpl c).queue = e :: rest → (s.cpl c).writing = some w →
    s.admin = .deletingSub e.ring →
    e.ring ≠ 0 → (s.sub 0).occupancy = .staged → (s.sub 0).staged = some (.admin tag cmd) →
    (s.sub 0).completion = some 0 →
    let k := s.cpl c
    let q := k.irq.posted s.timeBase
    let phase := if (k.tail + 1) % k.size = 0 then !k.phase else k.phase
    exec (.completionWriteEnd c .ok) s =
      .next
        ((commandEnds
          ((s.setCpl c
            { k with
              queue := rest, writing := none, reserved := k.reserved - 1, tail := (k.tail + 1) % k.size, phase,
              irq := q.1 }).setSub e.ring .reset) tag .success).sendIf q.2 k.irq.vector)

/-- R148, R149: what a posted record does to a ring's interrupt state, and that a message is sent exactly when the
state becomes SENT. R149, R151: the delay of a COUNTING ring runs out at its timer. -/
def Obligations.CoalescingDecidesMessages : Prop :=
  (∀ (q : Irq) (now : Time),
    (q.state = .armed → q.threshold = 1 →
      q.posted now = ({ q with state := .sent, count := 0, timer := none }, true)) ∧
    (q.state = .armed → q.threshold ≠ 1 →
      q.posted now =
        ({ q with state := .counting, count := 1, timer := if 0 < q.delay then some (now + BitVec.ofNat 32 q.delay) else none },
          false)) ∧
    (q.state = .counting → q.count + 1 = q.threshold →
      q.posted now = ({ q with state := .sent, count := 0, timer := none }, true)) ∧
    (q.state = .counting → q.count + 1 ≠ q.threshold → q.posted now = ({ q with count := q.count + 1 }, false)) ∧
    (q.state = .sent → q.posted now = (q, false))) ∧
  ∀ (s : State) (due : Time), s.live = true → s.timeBase = due →
    (∀ c : CplId, (s.cpl c).irq.state = .counting → (s.cpl c).irq.timer = some due →
      exec (.coalescingTimer (.completion c)) s =
        .next
          ((s.setCpl c
            { s.cpl c with irq := { (s.cpl c).irq with state := .sent, count := 0, timer := none } }).sendMessage
            (s.cpl c).irq.vector)) ∧
    (∀ r : RcvId, (s.rcv r).irq.state = .counting → (s.rcv r).irq.timer = some due →
      exec (.coalescingTimer (.receive r)) s =
        .next
          ((s.setRcv r
            { s.rcv r with irq := { (s.rcv r).irq with state := .sent, count := 0, timer := none } }).sendMessage
            (s.rcv r).irq.vector))

/-- R151, R152: a message on a vector, and the end of its write. R153: SET_VECTOR. -/
def Obligations.MessagesFollowVectors : Prop :=
  (∀ (s : State) (v : VecId),
    ((s.vector v).masked = false →
      s.sendMessage v =
        { s with
          messages := s.messages ++ [{ vector := v, address := (s.vector v).address, data := (s.vector v).data }] }) ∧
    ((s.vector v).masked = true → s.sendMessage v = s.setVector v { s.vector v with pending := true }) ∧
    ∀ before m after, s.live = true → s.messages = before ++ m :: after → (∀ x ∈ before, x.vector ≠ v) → m.vector = v →
      exec (.messageWriteEnd v .ok) s = .next { s with messages := before ++ after }) ∧
  ∀ (s : State) (tag : BitVec 16) (vector : Nat) (masked : Bool) (data : Word32) (address : Addr),
    Carries s tag (.setVector vector masked data address) →
    (15 < vector ∨ address.toNat % 4 ≠ 0 → exec .setVector s = .next (commandEnds s tag .badParameter)) ∧
    ∀ v : VecId, v.val = vector → address.toNat % 4 = 0 →
      (masked = true →
        exec .setVector s =
          .next (commandEnds (s.setVector v { address, data, masked, pending := (s.vector v).pending }) tag .success)) ∧
      (masked = false → (s.vector v).pending = false →
        exec .setVector s = .next (commandEnds (s.setVector v { address, data, masked, pending := false }) tag .success)) ∧
      (masked = false → (s.vector v).pending = true →
        exec .setVector s =
          .next
            (commandEnds
              { s.setVector v { address, data, masked, pending := false } with
                messages := s.messages ++ [{ vector := v, address, data }] } tag .success))

/-- R154, R155: creating and deleting a completion ring. -/
def Obligations.CompletionRingsCreatedAndDeleted : Prop :=
  ∀ (s : State) (tag : BitVec 16) (ring : Nat),
    (∀ vector threshold size delay base,
      Carries s tag (.createCompletionRing ring vector threshold size delay base) →
      let bad : Prop := exec .createCompletionRing s = .next (commandEnds s tag .badParameter)
      (ring = 0 ∨ 15 < ring → bad) ∧
      ∀ c : CplId, c.val = ring → ring ≠ 0 →
        ((s.cpl c).state = .active → exec .createCompletionRing s = .next (commandEnds s tag .inUse)) ∧
        ((s.cpl c).state = .absent →
          (¬ RingPlace size base ∨ 15 < vector ∨ threshold = 0 ∨ 255 < threshold) → bad) ∧
        (∀ v : VecId, (s.cpl c).state = .absent → RingPlace size base → v.val = vector → 1 ≤ threshold → threshold ≤ 255 →
          exec .createCompletionRing s =
            .next
              (commandEnds
                (s.setCpl c
                  { state := .active, base, size, tail := 0, consumer := 0, phase := true, reserved := 0, queue := [],
                    writing := none,
                    irq := { vector := v, threshold, delay, state := .armed, count := 0, timer := none } })
                tag .success (BitVec.ofNat 32 ring)))) ∧
    (Carries s tag (.deleteCompletionRing ring) →
      (ring = 0 ∨ 15 < ring → exec .deleteCompletionRing s = .next (commandEnds s tag .badParameter)) ∧
      ∀ c : CplId, c.val = ring → ring ≠ 0 →
        let named := ∃ r : SubId, (s.sub r).state ≠ .absent ∧ (s.sub r).completion = some c
        ((s.cpl c).state = .absent → exec .deleteCompletionRing s = .next (commandEnds s tag .notFound)) ∧
        ((s.cpl c).state = .active → named → exec .deleteCompletionRing s = .next (commandEnds s tag .inUse)) ∧
        ((s.cpl c).state = .active → ¬ named →
          exec .deleteCompletionRing s = .next (commandEnds (s.setCpl c .reset) tag .success)))

/-! ### Receive rings (chapter 9) -/

/-- R160, R161, R163, 11.6, R185: the record at the head of the queue begins its write at the tail, with the ring's
phase and its lost count, which becomes 0. R160, R164, R165, R167: a receive record has been written. The last record
of a ring that is being deleted takes the ring away, and the deletion completes. That a service record then discards for no
ring is read from R168 (notes/assumptions/23.md). -/
def Obligations.ReceiveRecordsAreWritten : Prop :=
  (∀ (s : State) (r : RcvId) (e : RcvEntry) (rest : List RcvEntry), s.live = true → (s.rcv r).queue = e :: rest →
    (s.rcv r).writing = none →
    ∃ bytes : List Byte,
      exec (.receiveWriteStart r) s =
        .next
          (s.setRcv r
            { s.rcv r with
              writing := some { address := (s.rcv r).base + BitVec.ofNat 64 (96 * (s.rcv r).tail), bytes }, lost := 0 }) ∧
      bytes.length = 96 ∧
      (byteAt bytes 0x00).toNat = e.kind.code ∧ (byteAt bytes 0x01).toNat = e.port.val ∧
      (byteAt bytes 0x02).toNat = e.frameKind.code ∧ (byteAt bytes 0x03).toNat = e.entry.val ∧
      (le16At bytes 0x04).toNat = e.source.toNat ∧ byteAt bytes 0x06 = e.channel ∧
      (e.length < 256 → (byteAt bytes 0x07).toNat = e.length) ∧ le16At bytes 0x08 = e.token.getD 0 ∧
      (byteAt bytes 0x0A).toNat = (e.reason.map CloseReason.code).getD 0 ∧
      (byteAt bytes 0x0B).toNat = (e.slot.map Fin.val).getD 0 ∧
      ((s.rcv r).lost < 65536 → (le16At bytes 0x0C).toNat = (s.rcv r).lost) ∧
      byteAt bytes 0x0E = 0 ∧ byteAt bytes 0x0F = 0 ∧ le32At bytes 0x10 = e.timestamp ∧
      (∀ i, 0x14 ≤ i → i ≤ 0x1E → byteAt bytes i = 0) ∧ (byteAt bytes 0x1F).toNat = (s.rcv r).phase.toNat ∧
      ∀ i, i < 64 → byteAt bytes (0x20 + i) = byteAt e.payload i) ∧
  ∀ (s : State) (r : RcvId) (e : RcvEntry) (rest : List RcvEntry) (w : DmaWrite), s.live = true →
    (s.rcv r).queue = e :: rest → (s.rcv r).writing = some w →
    let k := s.rcv r
    let q := k.irq.posted s.timeBase
    let phase := if (k.tail + 1) % k.size = 0 then !k.phase else k.phase
    let t := (s.setRcv r
      { k with queue := rest, writing := none, tail := (k.tail + 1) % k.size, phase, irq := q.1 }).sendIf q.2 k.irq.vector
    (k.closing = false ∨ rest ≠ [] → exec (.receiveWriteEnd r .ok) s = .next t) ∧
    ∀ tag cmd, k.closing = true → rest = [] → s.admin = .deletingRcv r → (s.sub 0).occupancy = .staged →
      (s.sub 0).staged = some (.admin tag cmd) → (s.sub 0).completion = some 0 →
      exec (.receiveWriteEnd r .ok) s =
        .next (commandEnds { t.setRcv r .reset with ports := s.ports.map (Port.forgetDiscard r) } tag .success)

/-- R158, R163, R106, R115: a claim at posting is answered GRANTED, FULL or ABSENT. -/
def Obligations.ClaimAtPostingAnswers : Prop :=
  ∀ (s : State) (r : RcvId) (e : RcvEntry),
    let k := s.rcv r
    (k.state = .active → k.closing = false → k.unconsumed + (k.held + k.queue.length) < k.size - 1 →
      s.claimAtPosting r e = s.setRcv r { k with queue := k.queue ++ [e] }) ∧
    (k.state = .active → k.closing = false → k.size - 1 ≤ k.unconsumed + (k.held + k.queue.length) → k.lost ≤ 65535 →
      s.claimAtPosting r e = s.setRcv r { k with lost := min 65535 (k.lost + 1) }) ∧
    (k.state = .absent ∨ k.closing = true → s.claimAtPosting r e = s)

/-- R166: creating a receive ring. R167, R168: deleting a receive ring, and what the service record of a port then holds. That
a match entry names a ring only through the field its action uses (notes/assumptions/22.md), and that a record that
discards for the ring discards for none (notes/assumptions/23.md), are read from the rules. -/
def Obligations.ReceiveRingsCreatedAndDeleted : Prop :=
  (∀ (s : State) (tag : BitVec 16) (ring vector threshold policy size delay : Nat) (base : Addr),
    Carries s tag (.createReceiveRing ring vector threshold policy size delay base) →
    let bad : Prop := exec .createReceiveRing s = .next (commandEnds s tag .badParameter)
    (15 < ring → bad) ∧
    ∀ r : RcvId, r.val = ring →
      ((s.rcv r).state = .active → exec .createReceiveRing s = .next (commandEnds s tag .inUse)) ∧
      ((s.rcv r).state = .absent →
        (¬ RingPlace size base ∨ 1 < policy ∨ 15 < vector ∨ threshold = 0 ∨ 255 < threshold) → bad) ∧
      (∀ v : VecId, (s.rcv r).state = .absent → RingPlace size base → policy ≤ 1 → v.val = vector → 1 ≤ threshold →
        threshold ≤ 255 →
        exec .createReceiveRing s =
          .next
            (commandEnds
              (s.setRcv r
                { state := .active, closing := false, base, size, tail := 0, consumer := 0, phase := true, held := 0,
                  queue := [], writing := none,
                  policy := if policy = 0 then .refuseWhenFull else .discardWhenFull, lost := 0,
                  irq := { vector := v, threshold, delay, state := .armed, count := 0, timer := none } })
              tag .success (BitVec.ofNat 32 ring)))) ∧
  (∀ (s : State) (tag : BitVec 16) (ring : Nat), Carries s tag (.deleteReceiveRing ring) →
    (15 < ring → exec .deleteReceiveRing s = .next (commandEnds s tag .badParameter)) ∧
    ∀ r : RcvId, r.val = ring →
      let named := ∃ i : MatchId, (s.entry i).valid = true ∧
        ((((s.entry i).action = some .deliver ∨ (s.entry i).action = some .defer) ∧ (s.entry i).targetRing.toNat = ring) ∨
          (((s.entry i).action = some .replySlot ∨ (s.entry i).action = some .slotWrite) ∧
            ∃ b, (s.entry i).notifyRing = some b ∧ b.toNat = ring))
      let queried := ∃ (p : PortId) (q : QueryDetails), (s.port p).window.query = some q ∧ q.ring = r
      let cancelled := s.ports.map (Port.cancelReservation r)
      ((s.rcv r).state = .absent → exec .deleteReceiveRing s = .next (commandEnds s tag .notFound)) ∧
      ((s.rcv r).state = .active → named ∨ queried → exec .deleteReceiveRing s = .next (commandEnds s tag .inUse)) ∧
      ((s.rcv r).state = .active → ¬ named → ¬ queried → (s.rcv r).queue = [] → (s.rcv r).writing = none →
        exec .deleteReceiveRing s =
          .next (commandEnds { s.setRcv r .reset with ports := cancelled.map (Port.forgetDiscard r) } tag .success)) ∧
      ((s.rcv r).state = .active → ¬ named → ¬ queried → (s.rcv r).queue ≠ [] →
        exec .deleteReceiveRing s =
          .next
            { s.setRcv r { s.rcv r with held := 0, closing := true } with ports := cancelled, admin := .deletingRcv r })) ∧
  ∀ (r : RcvId) (x : Port),
    (x.frame.bind (·.service) = none → x.cancelReservation r = x ∧ x.forgetDiscard r = x) ∧
    ∀ f v, x.frame = some f → f.service = some v →
      let holds := fun w : ServiceRec => { x with frame := some { f with service := some w } }
      let forRing := ∃ h, v.hit = some h ∧ h.entry.targetRing.toNat % 16 = r.val
      (v.reservation = some r → x.cancelReservation r = holds { v with reservation := none }) ∧
      (v.reservation ≠ some r → x.cancelReservation r = x) ∧
      (v.discard = true → forRing → x.forgetDiscard r = holds { v with discard := false }) ∧
      (v.discard = false ∨ ¬ forRing → x.forgetDiscard r = x)

/-! ### Administration of ports (chapter 2) -/

/-- R32, R33: SET_PORT. -/
def Obligations.SetPortReplacesConfiguration : Prop :=
  ∀ (s : State) (tag : BitVec 16) (port rate station holdCeiling answerLimit patience barThreshold stuckLimit : Nat),
    Carries s tag (.setPort port rate station holdCeiling answerLimit patience barThreshold stuckLimit) →
    let inRange := rate ≤ 3 ∧ station ≤ 1022 ∧ (10 ≤ holdCeiling ∧ holdCeiling ≤ 65535) ∧
      (10 ≤ answerLimit ∧ answerLimit ≤ 65535) ∧ (1 ≤ patience ∧ patience ≤ 255) ∧
      (1 ≤ barThreshold ∧ barThreshold ≤ 15) ∧ 1 ≤ stuckLimit ∧ stuckLimit ≤ 255
    (3 < port → exec .setPort s = .next (commandEnds s tag .badParameter)) ∧
    ∀ p : PortId, p.val = port →
      ((s.port p).state ≠ .off → exec .setPort s = .next (commandEnds s tag .portBusy)) ∧
      ((s.port p).state = .off → ¬ inRange → exec .setPort s = .next (commandEnds s tag .badParameter)) ∧
      ∀ k : Rate, (s.port p).state = .off → inRange → k.bitTime = 8 / 2 ^ rate →
        exec .setPort s =
          .next
            (commandEnds
              (s.setPort p
                { s.port p with
                  config :=
                    { station := BitVec.ofNat 10 station, rate := k, holdCeiling, answerLimit, patience, barThreshold,
                      stuckLimit } })
              tag .success)

/-- R24, R39, R21: the checks of PORT_CONTROL, START and RECOVER. A PORT_CONTROL that fails its checks is answered by whichever
of its three rows is given (notes/assumptions/13.md). R34, R35, R47, R120: STOP, by the port's state; what a port that is
OFF keeps; and a port with stop pending, which goes on to OFF, and completes the STOP, as soon as it reaches IDLE or
OBSERVING, at a header judgement as a receiver, or at a stuck condition; as an initiator that has not lost it goes on to
INITIATING. R134, R61, R179: what that
happening completes joins each posting queue in increasing ring id, and the STOP last. How the line measures are held is
notes/assumptions/7.md. -/
def Obligations.PortControlByState : Prop :=
  (∀ (s : State) (tag : BitVec 16) (port sub : Nat), Carries s tag (.portControl port sub) →
    ∀ bck bda : Level,
    (3 < port ∨ sub = 0 ∨ 3 < sub →
      exec (.portControlStart bck bda) s = .next (commandEnds s tag .badParameter) ∧
      exec (.portControlStop bck) s = .next (commandEnds s tag .badParameter) ∧
      exec .portControlRecover s = .next (commandEnds s tag .badParameter)) ∧
    ∀ p : PortId, p.val = port →
      let x := s.port p
      (sub = 1 → x.state = .off →
        exec (.portControlStart bck bda) s =
          .next
            (commandEnds
              (s.setPort p
                { x with
                  state := .idle, stopPending := false, bckDriver := .released, bdaDriver := .released, busView := .busy,
                  idleSince := if bck = .recessive ∧ bda = .recessive then some s.timeBase else none, idleFull := false,
                  bckLowSince := if bck = .dominant then some s.timeBase else none,
                  bdaLowSince := if bda = .dominant then some s.timeBase else none, silenceSince := none,
                  frame := none, recovery := none }) tag .success)) ∧
      (sub = 1 → x.state ≠ .off → exec (.portControlStart bck bda) s = .next (commandEnds s tag .portBusy)) ∧
      (sub = 3 → x.state = .faulted →
        exec .portControlRecover s =
          .next
            { s.setPort p
                { recovers x s.timeBase with
                  stats := { x.stats with stuckEvents := x.stats.stuckEvents + 1 } } with
              admin := .recovering p }) ∧
      (sub = 3 → x.state ≠ .faulted → exec .portControlRecover s = .next (commandEnds s tag .portBusy))) ∧
  (∀ x : Port,
    x.goOff =
      { state := .off, config := x.config, stopPending := false, bckDriver := .released, bdaDriver := .released,
        busView := .busy, idleSince := none, idleFull := false, bckLowSince := none, bdaLowSince := none,
        silenceSince := none, frame := none, stats := x.stats, window := .none, nextToken := x.nextToken, recovery := none,
        leaving := false }) ∧
  (∀ (s : State) (tag : BitVec 16) (p : PortId) (bck : Level), Carries s tag (.portControl p.val 2) →
    let x := s.port p
    (x.state = .off → exec (.portControlStop bck) s = .next (commandEnds s tag .success)) ∧
    (x.state = .idle ∨ x.state = .observing ∨ x.state = .faulted ∨ x.state = .recovering →
      exec (.portControlStop bck) s =
        .next (commandEnds (((s.setPort p x.goOff).setSnapshot p none).portDown p) tag .success)) ∧
    (x.state = .arbitrating ∨ x.state = .initiating ∨ x.state = .serving →
      exec (.portControlStop bck) s =
        .next { s.setPort p { x with stopPending := true } with admin := .stopping p }) ∧
    ∀ q expiry timer f v, x.state = .holding → x.window = .waiting q expiry timer → x.frame = some f →
      f.service = some v →
      exec (.portControlStop bck) s =
        .next
          (({ s.setPort p
                { x with
                  state := .serving, stopPending := true, bckDriver := .released, window := .none,
                  bckLowSince := if bck = .dominant then some s.timeBase else none, bdaLowSince := some s.timeBase,
                  silenceSince := if bck = .recessive then some s.timeBase else none,
                  frame := some { f with service := some { v with turnaround := some expiry } } } with
              admin := .stopping p } : State).claimAtPosting q.ring (closedRecord p q .portStopped s.timeBase))) ∧
  (∀ s t : State,
    let u := t.inRingOrder s
    u = { t with cpls := u.cpls } ∧
    ∀ c : CplId,
      let n := (s.cpl c).queue.length
      u.cpl c = { t.cpl c with queue := (u.cpl c).queue } ∧ (u.cpl c).queue.take n = (t.cpl c).queue.take n ∧
      ((u.cpl c).queue.drop n).Perm ((t.cpl c).queue.drop n) ∧
      ((u.cpl c).queue.drop n).Pairwise fun a b => b.ring = 0 ∨ (a.ring ≠ 0 ∧ a.ring ≤ b.ring)) ∧
  ∀ (s : State) (p : PortId), s.engine = .running ∨ s.engine = .halted → (s.port p).stopPending = true →
    let x := s.port p
    let off := fun t : State =>
      let u := ((t.setPort p (t.port p).goOff).setSnapshot p none).portDown p
      (if u.admin = .stopping p then u.finishAdmin .success else u).inRingOrder s
    (∀ c t, happensAt c = some p → (∀ line, c ≠ .stuckCondition p line) →
      (∀ f n wire, c = .headerJudgement p wire → x.frame = some f → f.position = .header n →
        x.state ≠ .observing ∧ (x.state = .arbitrating → f.turn ≠ none)) →
      exec c (s.setPort p { x with stopPending := false }) = .next t →
      let u := t.setPort p { t.port p with stopPending := true }
      ((t.port p).state = .idle ∨ (t.port p).state = .observing → exec c s = .next (off u)) ∧
      ((t.port p).state ≠ .idle → (t.port p).state ≠ .observing → exec c s = .next u)) ∧
    (∀ f n wire, x.state = .observing ∨ (x.state = .arbitrating ∧ f.turn = none) → x.frame = some f →
      f.position = .header n → exec (.headerJudgement p wire) s = .next (off s)) ∧
    (∀ f n wire r y e, x.state = .arbitrating → x.frame = some f → f.turn = some r → f.position = .header n →
      s.execOf r = some (y, e) →
      exec (.headerJudgement p wire) s =
        .next
          (withExec
            (frameAt (s.setPort p { x with state := .initiating }) p { f with position := .channelByte }
              (if (f.rxHeader).getLsbD 0 then .released else .drivenLow)
              (if (f.rxHeader).getLsbD 0 then .recessive else .dominant))
            r y { e with replyArea := [] })) ∧
    ∀ line t, LowSince x line t → s.timeBase = t + BitVec.ofNat 32 (1000 * x.config.stuckLimit) →
      let counted := s.setPort p { x with stats := { x.stats with stuckEvents := x.stats.stuckEvents + 1 } }
      (x.state = .idle ∨ x.state = .observing ∨ (x.state = .arbitrating ∧ x.frame.bind (·.turn) = none) →
        exec (.stuckCondition p line) s = .next (off counted)) ∧
      (∀ f r, x.frame = some f → f.turn = some r →
        (x.state = .initiating →
          exec (.stuckCondition p line) s = .next (off (counted.endAttempt r (some .busStuck) f.moved))) ∧
        ∀ y e, x.state = .arbitrating → s.execOf r = some (y, e) →
          exec (.stuckCondition p line) s = .next (off (counted.completeExec r .busStuck e.lastBytes))) ∧
      ∀ f, x.state = .serving → x.frame = some f →
        exec (.stuckCondition p line) s = .next (off (counted.dropService p f .busStuck))

/-- R47: every ELIGIBLE and every HELD descriptor of a port completes PORT_DOWN, with its own counts and in
increasing ring id, and nothing else changes: each posting queue gains these completions and no others. R46, R45: when
recovery succeeds, by the idle gap or by another station's opening, every HELD descriptor of the port is checked against
the health table as at its first consideration: it completes BARRED, or becomes ELIGIBLE with its own attempt limit or with
1. The other rings are untouched, and each posting queue gains the BARRED completions, in increasing ring id, and no
others. That the silence time of the port that sees the opening counts from the opening is the model's choice
(notes/assumptions/26.md). -/
def Obligations.WaitingDescriptorsFollowPort : Prop :=
  (∀ (s : State) (p : PortId),
    (∀ r, s.inState p r .eligible = true ∨ s.inState p r .held = true → NoAbortWaits s r) →
    let t := s.portDown p
    t = { s with subs := t.subs, cpls := t.cpls } ∧
    (∀ r,
      t.sub r =
        if (s.inState p r .eligible = true ∨ s.inState p r .held = true) ∧ (s.sub r).completion ≠ none then
          completing (s.sub r)
        else s.sub r) ∧
    ∀ c,
      let added := handedInOrder s c fun r =>
        if s.inState p r .eligible = true ∨ s.inState p r .held = true then
          (s.execOf r).map fun xe => execEntry s r xe.1 xe.2 .portDown xe.2.lastBytes
        else none
      t.cpl c = { s.cpl c with queue := (s.cpl c).queue ++ added }) ∧
  (∀ (s : State) (p : PortId), (∀ r, s.inState p r .held = true → NoAbortWaits s r) →
    (∀ r, (s.sub r).occupancy ≠ .empty → (s.sub r).completion ≠ none) →
    let t := s.recheckHeld p
    t = { s with subs := t.subs, cpls := t.cpls } ∧
    (∀ r, t.inState p r .held = false) ∧
    (∀ r, s.inState p r .held = false → t.sub r = s.sub r) ∧
    (∀ r x e, s.inState p r .held = true → s.execOf r = some (x, e) →
      let entry := (s.healthEntry p x.desc.dest).map HealthEntry.state
      let eligible := fun limit : Nat =>
        { s.sub r with staged := some (.xfer { x with exec := some { e with state := .eligible, limit } }) }
      (x.desc.kind = .notice ∨ entry = none ∨ entry = some .good ∨ (entry = some .barred ∧ x.desc.probe = true) →
        t.sub r = eligible x.desc.attemptLimit) ∧
      (x.desc.kind ≠ .notice → entry = some .suspect → t.sub r = eligible 1) ∧
      (x.desc.kind ≠ .notice → entry = some .barred → x.desc.probe = false → t.sub r = completing (s.sub r))) ∧
    ∀ c,
      let added := handedInOrder s c fun r =>
        match s.execOf r with
        | some (x, e) =>
          if s.inState p r .held = true ∧ x.desc.kind ≠ .notice ∧
              (s.healthEntry p x.desc.dest).map HealthEntry.state = some .barred ∧ x.desc.probe = false then
            some (execEntry s r x e .barred e.lastBytes)
          else none
        | none => none
      t.cpl c = { s.cpl c with queue := (s.cpl c).queue ++ added }) ∧
  ∀ (s : State) (p : PortId) (v : Recovery), Plain s p → (s.port p).state = .recovering → (s.port p).recovery = some v →
    v.phase = .gap → s.admin ≠ .recovering p →
    let x := s.port p
    exec (.opening p) s = .next ((s.setPort p (opened x s.timeBase)).recheckHeld p) ∧
    ∀ t, x.idleSince = some t → s.timeBase = t + BitVec.ofNat 32 (8 * x.config.rate.bitTime) →
      exec (.idleGap p) s =
        .next ((s.setPort p { idleAfter x (some t) with busView := .free, idleFull := true }).recheckHeld p)

/-- R41, 11.6: READ_PORT_STATS copies the counters; the end of its write completes the command, and with the clear flag
takes the snapshot off the counters. -/
def Obligations.PortStatisticsRead : Prop :=
  ∀ (s : State) (tag : BitVec 16) (port : Nat) (clear : Bool) (buffer : Addr),
    (Carries s tag (.readPortStats port clear buffer) →
      (3 < port ∨ buffer.toNat % 4 ≠ 0 → exec .readPortStats s = .next (commandEnds s tag .badParameter)) ∧
      ∀ p : PortId, p.val = port → buffer.toNat % 4 = 0 →
        ∃ bytes : List Byte,
          exec .readPortStats s =
            .next { s with admin := .statsWrite p clear (s.port p).stats { address := buffer, bytes } } ∧
          bytes.length = 36 ∧ le32At bytes 0x00 = (s.port p).stats.framesStarted ∧
          le32At bytes 0x04 = (s.port p).stats.arbitrationLost ∧ le32At bytes 0x08 = (s.port p).stats.attemptsFailed ∧
          le32At bytes 0x0C = (s.port p).stats.framesServed ∧ le32At bytes 0x10 = (s.port p).stats.inboundRefused ∧
          le32At bytes 0x14 = (s.port p).stats.framesBroken ∧ le32At bytes 0x18 = (s.port p).stats.clashes ∧
          le32At bytes 0x1C = (s.port p).stats.stuckEvents ∧ le32At bytes 0x20 = (s.port p).stats.healthUntracked) ∧
    ∀ p snapshot w cmd, s.live = true → s.admin = .statsWrite p clear snapshot w → (s.sub 0).occupancy = .staged →
      (s.sub 0).staged = some (.admin tag cmd) → (s.sub 0).completion = some 0 →
      exec (.statsWriteEnd .fault) s = .next (commandEnds s tag .storeFault) ∧
      (clear = false → exec (.statsWriteEnd .ok) s = .next (commandEnds s tag .success)) ∧
      (clear = true →
        exec (.statsWriteEnd .ok) s =
          .next
            (commandEnds
              (s.setPort p
                { s.port p with
                  stats :=
                    let c := (s.port p).stats
                    { framesStarted := c.framesStarted - snapshot.framesStarted,
                      arbitrationLost := c.arbitrationLost - snapshot.arbitrationLost,
                      attemptsFailed := c.attemptsFailed - snapshot.attemptsFailed,
                      framesServed := c.framesServed - snapshot.framesServed,
                      inboundRefused := c.inboundRefused - snapshot.inboundRefused,
                      framesBroken := c.framesBroken - snapshot.framesBroken, clashes := c.clashes - snapshot.clashes,
                      stuckEvents := c.stuckEvents - snapshot.stuckEvents,
                      healthUntracked := c.healthUntracked - snapshot.healthUntracked } }) tag .success))

/-! ### Match table, reply store and health table (chapters 4 to 6) -/

/-- R84, R99: SET_MATCH, by its checks in order of the rule. R100, R83: CLEAR_MATCH. -/
def Obligations.MatchEntriesSetAndCleared : Prop :=
  (∀ (s : State) (tag : BitVec 16) (index action : Nat) (ports : BitVec 4) (kinds : BitVec 3)
    (channelValue channelMask targetRing slot notifyRing : Byte) (present : Bool) (expiry : Byte)
    (sourceValue sourceMask : Nat),
    Carries s tag
      (.setMatch index action ports kinds channelValue channelMask targetRing slot notifyRing present expiry sourceValue
        sourceMask) →
    let active := fun b : Byte => ∃ r : RcvId, r.val = b.toNat ∧ (s.rcv r).state = .active
    let suits := fun (a : Action) (k : FrameKind) =>
      (a = .deliver ∧ k ≠ .query) ∨ (a = .replySlot ∧ k = .query) ∨ (a = .slotWrite ∧ k = .send) ∨
        (a = .defer ∧ k = .query) ∨ a = .refuse
    let passes := fun a : Action =>
      ports ≠ 0 ∧ kinds ≠ 0 ∧ (∀ k : FrameKind, kinds.getLsbD k.bit = true → suits a k) ∧
      sourceValue ≤ 1023 ∧ sourceMask ≤ 1023 ∧ (a = .defer → expiry.toNat ≤ 1) ∧
      (a = .deliver ∨ a = .defer → active targetRing) ∧
      (a = .replySlot ∨ a = .slotWrite → slot.toNat ≤ 31 ∧ (present = true → active notifyRing))
    (31 < index ∨ action = 0 ∨ 5 < action → exec .setMatch s = .next (commandEnds s tag .badParameter)) ∧
    ∀ (i : MatchId) (a : Action), i.val = index → Action.ofCode action = some a →
      (¬ passes a → exec .setMatch s = .next (commandEnds s tag .badParameter)) ∧
      (passes a →
        exec .setMatch s =
          .next
            (commandEnds
              (s.setEntry i
                { valid := true, ports, kinds, channelValue, channelMask, sourceValue := BitVec.ofNat 10 sourceValue,
                  sourceMask := BitVec.ofNat 10 sourceMask, action := some a, targetRing, slot,
                  notifyRing := if present then some notifyRing else none, expiry }) tag .success))) ∧
  ∀ (s : State) (tag : BitVec 16) (index : Nat), Carries s tag (.clearMatch index) →
    (31 < index → exec .clearMatch s = .next (commandEnds s tag .badParameter)) ∧
    ∀ i : MatchId, i.val = index →
      exec .clearMatch s =
        .next
          (commandEnds
            (s.setEntry i
              { valid := false, ports := 0, kinds := 0, channelValue := 0, channelMask := 0, sourceValue := 0,
                sourceMask := 0, action := none, targetRing := 0, slot := 0, notifyRing := none, expiry := 0 }) tag
            .success)

/-- R103: SET_REPLY and the end of its read. R104: CLEAR_REPLY. -/
def Obligations.ReplySlotsSetAndCleared : Prop :=
  (∀ (s : State) (tag : BitVec 16),
    (∀ slot length oneShot buffer, Carries s tag (.setReply slot length oneShot buffer) →
      (31 < slot ∨ 64 < length → exec .setReply s = .next (commandEnds s tag .badParameter)) ∧
      ∀ i : SlotId, i.val = slot →
        (length = 0 →
          exec .setReply s = .next (commandEnds (s.setReply i { loaded := true, data := [], oneShot }) tag .success)) ∧
        (1 ≤ length → length ≤ 64 →
          exec .setReply s = .next { s with admin := .replyRead i length oneShot buffer })) ∧
    ∀ i length oneShot buffer cmd bytes, s.live = true → s.admin = .replyRead i length oneShot buffer →
      (s.sub 0).occupancy = .staged → (s.sub 0).staged = some (.admin tag cmd) → (s.sub 0).completion = some 0 →
      exec (.setReplyReadEnd .fault) s = .next (commandEnds s tag .fetchFault) ∧
      (bytes.length = length →
        exec (.setReplyReadEnd (.data bytes)) s =
          .next (commandEnds (s.setReply i { loaded := true, data := bytes, oneShot }) tag .success))) ∧
  ∀ (s : State) (tag : BitVec 16) (slot : Nat), Carries s tag (.clearReply slot) →
    (31 < slot → exec .clearReply s = .next (commandEnds s tag .badParameter)) ∧
    ∀ i : SlotId, i.val = slot →
      exec .clearReply s =
        .next (commandEnds (s.setReply i { loaded := false, data := [], oneShot := false }) tag .success)

/-- R77: CLEAR_HEALTH. R79, R80, 11.6: READ_HEALTH and the end of its write. -/
def Obligations.HealthTableClearedAndRead : Prop :=
  (∀ (s : State) (tag : BitVec 16) (port scope station : Nat), Carries s tag (.clearHealth port scope station) →
    (3 < port ∨ (scope ≠ 1 ∧ scope ≠ 2) ∨ (scope = 1 ∧ 1022 < station) →
      exec .clearHealth s = .next (commandEnds s tag .badParameter)) ∧
    ∀ p : PortId, p.val = port →
      (scope = 1 → station ≤ 1022 → (∀ e ∈ s.health, ¬ (e.port = p ∧ e.station.toNat = station)) →
        exec .clearHealth s = .next (commandEnds s tag .notFound)) ∧
      (scope = 1 → station ≤ 1022 → (∃ e ∈ s.health, e.port = p ∧ e.station.toNat = station) →
        exec .clearHealth s =
          .next
            (commandEnds
              { s with health := s.health.filter fun e => !(e.port == p && e.station.toNat == station) } tag .success)) ∧
      (scope = 2 →
        exec .clearHealth s =
          .next (commandEnds { s with health := s.health.filter fun e => e.port != p } tag .success))) ∧
  ∀ (s : State) (tag : BitVec 16),
    (∀ buffer, Carries s tag (.readHealth buffer) →
      (buffer.toNat % 4 ≠ 0 → exec .readHealth s = .next (commandEnds s tag .badParameter)) ∧
      (buffer.toNat % 4 = 0 → s.health = [] → exec .readHealth s = .next (commandEnds s tag .success)) ∧
      (buffer.toNat % 4 = 0 → s.health ≠ [] →
        ∃ bytes : List Byte,
          exec .readHealth s = .next { s with admin := .healthWrite s.health.length { address := buffer, bytes } } ∧
          bytes.length = 4 * s.health.length ∧
          ∀ i e, s.health[i]? = some e →
            le16At bytes (4 * i) = e.station.setWidth 16 ∧ (byteAt bytes (4 * i + 2)).toNat = e.port.val ∧
            (e.failed ≤ 15 → (byteAt bytes (4 * i + 3)).toNat = e.state.code + 16 * e.failed))) ∧
    ∀ n w cmd, s.live = true → s.admin = .healthWrite n w → (s.sub 0).occupancy = .staged →
      (s.sub 0).staged = some (.admin tag cmd) → (s.sub 0).completion = some 0 →
      exec (.healthWriteEnd .ok) s = .next (commandEnds s tag .success (BitVec.ofNat 32 n)) ∧
      exec (.healthWriteEnd .fault) s = .next (commandEnds s tag .storeFault)

/-- R71, R72, R73: a target failure updates the target's entry, creates one, evicts the least recently touched GOOD
entry for it, or counts in health_untracked. R74: a target success makes the target's entry GOOD with failed count 0
and moves it to the tail, from every state; without an entry it leaves the table, and health_untracked, alone. -/
def Obligations.OutcomesUpdateHealthTable : Prop :=
  (∀ (s : State) (p : PortId) (st : Station), HealthBounded s →
    let threshold := (s.port p).config.barThreshold
    let absent := ∀ e ∈ s.health, ¬ (e.port = p ∧ e.station = st)
    let fresh : HealthEntry :=
      { port := p, station := st, state := if threshold ≤ 1 then .barred else .suspect, failed := 1 }
    (∀ before e after, s.health = before ++ e :: after → e.port = p → e.station = st →
      s.targetFailure p st =
        { s with
          health := before ++ after ++
            [{ port := p, station := st,
               state := if threshold ≤ min 15 (e.failed + 1) then .barred else .suspect,
               failed := min 15 (e.failed + 1) }] }) ∧
    (absent → s.health.length < 64 → s.targetFailure p st = { s with health := s.health ++ [fresh] }) ∧
    (∀ before e after, absent → s.health.length = 64 → s.health = before ++ e :: after → e.state = .good →
      (∀ x ∈ before, x.state ≠ .good) →
      s.targetFailure p st = { s with health := before ++ after ++ [fresh] }) ∧
    (absent → s.health.length = 64 → (∀ e ∈ s.health, e.state ≠ .good) →
      s.targetFailure p st =
        s.setPort p
          { s.port p with
            stats := { (s.port p).stats with healthUntracked := (s.port p).stats.healthUntracked + 1 } })) ∧
  ∀ (s : State) (p : PortId) (st : Station), HealthBounded s →
    (∀ before e after, s.health = before ++ e :: after → e.port = p → e.station = st →
      s.targetSuccess p st =
        { s with health := before ++ after ++ [{ port := p, station := st, state := .good, failed := 0 }] }) ∧
    ((∀ e ∈ s.health, ¬ (e.port = p ∧ e.station = st)) → s.targetSuccess p st = s)

/-! ### The scheduler and arbitration (chapters 1 and 3) -/

/-- R50: the scheduler chooses a member of the highest priority held, and among those the one that comes first after the
position of that priority, counting upward through the rings 1 to 31 with wrap. -/
def Obligations.SchedulerPicksNextInTopPriority : Prop :=
  ∀ (s : State) (p : PortId),
    (s.pick p = none ↔ ∀ r, s.inState p r .eligible = false) ∧
    ∀ r, s.pick p = some r →
      let after := fun i : SubId =>
        if s.position p (s.priorityOf r) < i.val then i.val - s.position p (s.priorityOf r)
        else i.val + 31 - s.position p (s.priorityOf r)
      s.inState p r .eligible = true ∧
      (∀ i, s.inState p i .eligible = true → s.priorityOf i ≤ s.priorityOf r) ∧
      ∀ i, s.inState p i .eligible = true → s.priorityOf i = s.priorityOf r → after r ≤ after i

/-- R25, R49, R51, R52, R59, R26: a turn begins with the choice; the opening counts it, or another station's opening forestalls
it; it ends at an arbitration loss, or goes on to an attempt at the end of the header. That a choice may stand before its
opening as a row of its own is notes/assumptions/11.md; that the choice and the opening look at the bus view alone, and not
at BCK, is notes/assumptions/31.md; that a turn forestalled with an abort pending ends ABORTED is notes/assumptions/35.md;
the line measures are those of notes/assumptions/7.md and 17.md; that the silence time counts from an opening, the port's own
or another station's, is notes/assumptions/26.md. -/
def Obligations.TurnRunsThroughHeader : Prop :=
  ∀ (s : State) (p : PortId) (r : SubId) (x : StagedXfer) (e : ExecRec), s.execOf r = some (x, e) →
    let y := s.port p
    let header := buildHeader x.desc.kind.frameKind (if x.desc.kind = .notice then 1023 else x.desc.dest) y.config.station
    let opens := fun t : State =>
      (t.setPosition p (s.priorityOf r) r.val).setPort p
        { y with
          state := .arbitrating, busView := .busy, idleSince := none, idleFull := false, bdaDriver := .drivenLow,
          silenceSince := some s.timeBase, bdaLowSince := some s.timeBase,
          stats := { y.stats with framesStarted := y.stats.framesStarted + 1 }, frame := some (ownFrame r header) }
    (s.engine = .running → y.state = .idle → y.busView = .free → s.pick p = some r →
      exec (.schedulerChoice p true) s = .next (opens (withExec s r x { e with state := .inAttempt })) ∧
      exec (.schedulerChoice p false) s =
        .next
          ((withExec s r x { e with state := .inAttempt }).setPort p
            { y with state := .arbitrating, frame := some { ownFrame r header with position := .opening } })) ∧
    (∀ o, y.state ≠ .arbitrating → (s.engine ≠ .running ∨ y.state ≠ .idle ∨ y.busView ≠ .free ∨ s.pick p = none) →
      exec (.schedulerChoice p o) s = .next s) ∧
    (∀ f, y.state = .arbitrating → y.frame = some f → f.turn = some r → f.position = .opening →
      (s.live = true → exec (.schedulerChoice p true) s = .next (opens s)) ∧
      ∀ c abort, Plain s p → (s.sub r).port = some p → (s.sub r).completion = some c → AbortWaits s r abort →
        exec (.opening p) s = .next (turnOver (s.setPort p (opened y s.timeBase)) r c x e abort)) ∧
    ∀ f n, Plain s p → y.state = .arbitrating → y.frame = some f → f.turn = some r → f.position = .header n →
      (∀ wire,
        exec (.headerJudgement p wire) s =
          .next
            (withExec
              (frameAt (s.setPort p { y with state := .initiating }) p { f with position := .channelByte }
                (if (f.rxHeader).getLsbD 0 then .released else .drivenLow)
                (if (f.rxHeader).getLsbD 0 then .recessive else .dominant))
              r x { e with replyArea := [] })) ∧
      ∀ (bit : Fin 24) (c : CplId) (abort : Option (BitVec 16 × Status)), (f.rxHeader).getMsbD bit.val = true →
        (s.sub r).port = some p → (s.sub r).completion = some c → AbortWaits s r abort → e.losses ≤ 255 →
        let e1 := { e with losses := min 255 (e.losses + 1), state := .eligible }
        let t :=
          withExec
            (frameAt
              (s.setPort p
                { y with
                  bckDriver := .released,
                  stats := { y.stats with arbitrationLost := y.stats.arbitrationLost + 1 } })
              p
              { f with
                role := .observer, position := .header (bit.val + 1), turn := none,
                rxHeader := f.rxHeader &&& ~~~(BitVec.twoPow 24 (23 - bit.val)) } .released .dominant (bit.val % 8))
            r x e1
        let completes := fun status : Status =>
          exec (.arbitrationLoss p bit) s = .next (completed t r c (execEntry t r x e1 status e.lastBytes) abort)
        (s.abortPending r = true → completes .aborted) ∧
        (s.abortPending r = false → e.deadlinePassed = true → completes .expired) ∧
        (s.abortPending r = false → e.deadlinePassed = false → e1.losses = y.config.patience → completes .arbExhausted) ∧
        (s.abortPending r = false → e.deadlinePassed = false → e1.losses ≠ y.config.patience →
          exec (.arbitrationLoss p bit) s = .next t)

/-- R8, R9, R10, 11.7: a header carries its fields and an even number of ones over each of its two groups; a header with
right check bits and a valid kind is the one built from its fields; a single bit changed makes every station ignore it;
and a port that loses takes its own bits and the rest from the wire. -/
def Obligations.HeadersRoundTripAndAreJudged : Prop :=
  (∀ (kind : FrameKind) (dest source station : Station),
    let h := buildHeader kind dest source
    Header.frameKind h = kind ∧ Header.dest h = dest ∧ Header.source h = source ∧ Header.checksRight h = true ∧
    (kind ≠ .notice → dest = 1023 → judge h station = .ignored) ∧
    (source = 1023 → judge h station = .ignored) ∧
    (source ≠ 1023 → (kind = .notice ∨ dest ≠ 1023) → dest = station → judge h station = .addressed kind) ∧
    (source ≠ 1023 → kind = .notice → dest = 1023 → station ≠ 1023 → judge h station = .broadcast) ∧
    (source ≠ 1023 → dest ≠ 1023 → dest ≠ station → judge h station = .other) ∧
    ∀ i, i < 24 → judge (h ^^^ BitVec.twoPow 24 i) station = .ignored) ∧
  (∀ h : Header, Header.checksRight h = true → Header.kind h ≠ 0 →
    buildHeader (Header.frameKind h) (Header.dest h) (Header.source h) = h) ∧
  (∀ (h : Header) (station : Station), (Header.checksRight h = false ∨ Header.kind h = 0) →
    judge h station = .ignored) ∧
  ∀ (own wire : Header) (n i : Nat), n ≤ 24 → i < 24 →
    (completeHeader own n wire).getMsbD i = if i < n then own.getMsbD i else wire.getMsbD i

/-! ### Receivers up to the header slot (chapters 1, 2 and 5) -/

/-- R5, R29, R9, R82, R85: another station's opening, the candidate list, and the header judgement of a receiver. The silence
time from the opening on is notes/assumptions/26.md, and the service record's length 0 and absent time before the verdict
are notes/assumptions/27.md. -/
def Obligations.ReceiversJudgeHeaders : Prop :=
  (∀ (s : State) (p : PortId) (kind : FrameKind) (source : Station),
    ((s.candidates p kind source).map fun c => c.index.val).Pairwise (· < ·) ∧
    ∀ c : Candidate, c ∈ s.candidates p kind source ↔
      (c.entry = s.entry c.index ∧ c.entry.valid = true ∧ c.entry.ports.getLsbD p.val = true ∧
        c.entry.kinds.getLsbD (match kind with | .send => 0 | .query => 1 | .notice => 2) = true ∧
        source &&& c.entry.sourceMask = c.entry.sourceValue &&& c.entry.sourceMask)) ∧
  ∀ (s : State) (p : PortId), Plain s p →
    let x := s.port p
    (x.state = .idle → exec (.opening p) s = .next (s.setPort p (opened x s.timeBase))) ∧
    ∀ f n wire, (x.state = .observing ∨ (x.state = .arbitrating ∧ f.turn = none)) → x.frame = some f →
      f.position = .header n →
      let h := completeHeader f.rxHeader n wire
      let last : Level := if h.getLsbD 0 then .recessive else .dominant
      let g := { f with rxHeader := h, position := .channelByte }
      let follows : Prop := exec (.headerJudgement p wire) s = .next (s.setPort p (observes x g s.timeBase last))
      let serves := fun (role : Role) (found : List Candidate) =>
        exec (.headerJudgement p wire) s =
          .next
            (frameAt (s.setPort p { x with state := .serving }) p
              { g with
                role,
                service := some
                  { candidates := found, hit := none, verdict := none, reservation := none, discard := false,
                    verdictTime := none, received := [], expected := 0, turnaround := none } }
              x.bdaDriver last)
      (judge h x.config.station = .ignored ∨ judge h x.config.station = .other → follows) ∧
      (∀ kind, judge h x.config.station = .addressed kind →
        serves .target (s.candidates p kind (Header.source h))) ∧
      (judge h x.config.station = .broadcast → s.candidates p .notice (Header.source h) = [] → follows) ∧
      (judge h x.config.station = .broadcast → s.candidates p .notice (Header.source h) ≠ [] →
        serves .listener (s.candidates p .notice (Header.source h)))

/-- R11, R51, R86: the channel byte, and the length byte where the port does not serve; the initiator sends its descriptor's.
That these rows of the initiator do not look at their operand is notes/assumptions/18.md. The hit is the first candidate
whose channel test the byte passes. R2, R15 to R19: how an OBSERVING port follows the
bytes and slots of the frame to its end point. -/
def Obligations.ChannelByteFindsHit : Prop :=
  ∀ (s : State) (p : PortId) (f : FrameRec), Plain s p → (s.port p).frame = some f →
    let x := s.port p
    let sends := fun (c : Instr) (g : FrameRec) (byte : Byte) =>
      exec c s = .next (frameAt s p g (if byte.getLsbD 0 then .released else .drivenLow) (lastLevel byte))
    (∀ byte : Byte, f.position = .channelByte →
      let g := { f with position := .lengthByte, channel := some byte }
      let passes := fun c : Candidate =>
        byte &&& c.entry.channelMask = c.entry.channelValue &&& c.entry.channelMask
      (∀ r y, x.state = .initiating → f.turn = some r → s.stagedOf r = some y →
        sends (.channelByte p byte) { f with position := .lengthByte, channel := some y.desc.channel } y.desc.channel) ∧
      (x.state = .observing → exec (.channelByte p byte) s = .next (frameAt s p g x.bdaDriver (lastLevel byte))) ∧
      ∀ v, x.state = .serving → f.service = some v →
        (∀ before c after, v.candidates = before ++ c :: after → passes c → (∀ b ∈ before, ¬ passes b) →
          exec (.channelByte p byte) s =
            .next (frameAt s p { g with service := some { v with hit := some c } } x.bdaDriver (lastLevel byte))) ∧
        ((∀ c ∈ v.candidates, ¬ passes c) → f.role ≠ .listener →
          exec (.channelByte p byte) s =
            .next (frameAt s p { g with service := some { v with hit := none } } x.bdaDriver (lastLevel byte))) ∧
        ((∀ c ∈ v.candidates, ¬ passes c) → f.role = .listener →
          exec (.channelByte p byte) s = .next (s.setPort p (observes x g s.timeBase (lastLevel byte))))) ∧
    (∀ length : Byte, f.position = .lengthByte →
      (∀ r y, x.state = .initiating → f.turn = some r → s.stagedOf r = some y →
        let own := BitVec.ofNat 8 y.desc.outLength
        sends (.headerVerdict p length) { f with position := .headerSlot, length := some own } own) ∧
      (x.state = .observing → length.toNat ≤ 64 →
        exec (.headerVerdict p length) s =
          .next (frameAt s p { f with position := .headerSlot, length := some length } x.bdaDriver (lastLevel length)))) ∧
    ∀ length : Byte, x.state = .observing → f.length = some length → Header.kind f.rxHeader ≠ 0 →
      let kind := Header.frameKind f.rxHeader
      let next := fun n : Nat =>
        if n < length.toNat then Position.byte n else if kind = .query then .turnaround else .done
      let goes := fun (c : Instr) (position : Position) (last : Level) =>
        exec c s = .next (frameAt s p { f with position } x.bdaDriver last)
      (f.position = .headerSlot →
        goes (.acknowledgeSlot p .dominant .dominant) (next 0) .dominant ∧
        goes (.acknowledgeSlot p .dominant .recessive) (if kind = .notice then next 0 else .done) .recessive ∧
        ∀ verdict, goes (.acknowledgeSlot p .recessive verdict) .done verdict) ∧
      (∀ n byte, f.position = .byte n → goes (.byteReceived p byte) (.byteSlot n) (lastLevel byte)) ∧
      (∀ n, f.position = .byteSlot n →
        goes (.acknowledgeSlot p .dominant .dominant) (next (n + 1)) .dominant ∧
        ∀ presence verdict, presence = .recessive ∨ verdict = .recessive →
          goes (.acknowledgeSlot p presence verdict) (if kind = .notice then next (n + 1) else .done) verdict) ∧
      (f.position = .turnaround →
        goes (.turnaroundSlot p .dominant .dominant) .replyLength .dominant ∧
        ∀ presence verdict, presence = .recessive ∨ verdict = .recessive →
          goes (.turnaroundSlot p presence verdict) .done verdict) ∧
      (∀ reply : Byte, f.position = .replyLength →
        exec (.replyLengthByte p reply) s =
          .next
            (frameAt s p
              { f with
                position := if 1 ≤ reply.toNat ∧ reply.toNat ≤ 64 then .replyByte 0 else .done,
                replyLength := some reply }
              x.bdaDriver (lastLevel reply))) ∧
      (∀ n byte, f.position = .replyByte n → goes (.replyByte p byte) (.replySlot n) (lastLevel byte)) ∧
      ∀ n reply, f.position = .replySlot n → f.replyLength = some reply →
        (n + 1 < reply.toNat → goes (.acknowledgeSlot p .dominant .dominant) (.replyByte (n + 1)) .dominant) ∧
        (reply.toNat ≤ n + 1 → goes (.acknowledgeSlot p .dominant .dominant) .done .dominant) ∧
        ∀ presence verdict, presence = .recessive ∨ verdict = .recessive →
          goes (.acknowledgeSlot p presence verdict) .done verdict

/-- R87, R88, R90 to R93, R105, R106, R163: the header verdict, by the hit. That a REFUSE counts in inbound_refused here, when
it is decided, and not one slot later, when it has been driven, is the model's choice (notes/assumptions/21.md). -/
def Obligations.HeaderVerdictFollowsHit : Prop :=
  ∀ (s : State) (p : PortId) (f : FrameRec) (v : ServiceRec) (length : Byte), Plain s p → (s.port p).state = .serving →
    (s.port p).frame = some f → f.position = .lengthByte → f.service = some v → length.toNat ≤ 64 →
    let gives := fun (t : State) (w : ServiceRec) (verdict : HeaderVerdict) =>
      exec (.headerVerdict p length) s = .next (verdictGiven t p f w length verdict)
    (v.hit = none → gives s v .refuse) ∧
    ∀ h, v.hit = some h →
      (h.entry.action = some .refuse → gives s v .refuse) ∧
      (h.entry.action = some .slotWrite → gives s v .accept) ∧
      (∀ r : RcvId, r.val = h.entry.targetRing.toNat →
        let k := s.rcv r
        let room := k.state = .active ∧ k.closing = false ∧ k.unconsumed + (k.held + k.queue.length) < k.size - 1
        let full := k.state = .active ∧ k.closing = false ∧ k.size - 1 ≤ k.unconsumed + (k.held + k.queue.length)
        let reserved := s.setRcv r { k with held := k.held + 1 }
        (h.entry.action = some .deliver →
          (room → gives reserved { v with reservation := some r } .accept) ∧
          (full → k.policy = .refuseWhenFull → gives s v .refuse) ∧
          (full → k.policy = .discardWhenFull → gives s { v with discard := true } .accept) ∧
          (k.state = .absent ∨ k.closing = true → gives s v .refuse)) ∧
        (h.entry.action = some .defer →
          ((s.port p).window = .none → room → gives reserved { v with reservation := some r } .accept) ∧
          ((s.port p).window ≠ .none ∨ full ∨ k.state = .absent ∨ k.closing = true → gives s v .refuse))) ∧
      ∀ i : SlotId, i.val = h.entry.slot.toNat → h.entry.action = some .replySlot →
        let k := s.reply i
        let taken := s.setSnapshot p (some { slot := i, data := k.data })
        let emptied := taken.setReply i { k with loaded := false, data := [] }
        (k.loaded = false → gives s v .refuse) ∧
        (k.loaded = true → k.oneShot = false → gives taken v .accept) ∧
        (k.loaded = true → k.oneShot = true → h.entry.notifyRing = none → gives emptied v .accept) ∧
        ∀ (b : Byte) (r : RcvId), k.loaded = true → k.oneShot = true → h.entry.notifyRing = some b → r.val = b.toNat →
          gives
            (emptied.claimAtPosting r
              { kind := .slotConsumed, port := p, frameKind := Header.frameKind f.rxHeader, entry := h.index,
                source := Header.source f.rxHeader, channel := f.channel.getD 0, length := length.toNat, token := none,
                reason := none, slot := some i, timestamp := s.timeBase, payload := [] })
            v .accept

/-! ### The target side after the header slot (chapters 2, 5 and 6) -/

/-- R12, R30, R31, R90, R92, R94, R111, R112: the serving port takes the frame's bytes, answers their slots, and reaches the
turnaround. When a port that has driven REFUSE is seen to leave SERVING, by the header slot's reading or by the row after
it, is notes/assumptions/19.md; that its own hold is in the turnaround slot's first bit is notes/assumptions/7.md. -/
def Obligations.ServingPortTakesBytes : Prop :=
  ∀ (s : State) (p : PortId) (f : FrameRec) (v : ServiceRec), Plain s p → (s.port p).state = .serving →
    (s.port p).frame = some f → f.service = some v →
    let x := s.port p
    let kind := Header.frameKind f.rxHeader
    let slot := exec (.acknowledgeSlot p .dominant .dominant) s
    let leaves := fun (c : Instr) (position : Position) (last : Level) =>
      exec c s = .next (s.setPort p (observes x { f with position } s.timeBase last))
    let slotEnds := fun (c : Instr) (position : Position) (last : Level) =>
      exec c s = .next (s.setPort p (observes x { f with position } s.timeBase last 1))
    (∀ n byte, f.position = .byte n →
      exec (.byteReceived p byte) s =
        .next
          (frameAt s p
            { f with position := .byteSlot n, service := some { v with received := v.received ++ [byte] } } .released
            (lastLevel byte))) ∧
    (f.position = .refused →
      (∀ byte, leaves (.byteReceived p byte) (.byteSlot 0) (lastLevel byte)) ∧
      slotEnds (.turnaroundSlot p .dominant .dominant) .replyLength .dominant ∧
      ∀ presence verdict, presence = .recessive ∨ verdict = .recessive →
        slotEnds (.turnaroundSlot p presence verdict) .done verdict) ∧
    (∀ length : Byte, f.position = .headerSlot → v.verdict = some .refuse → f.length = some length →
      v.expected = length.toNat → Header.kind f.rxHeader ≠ 0 →
      let stays := fun verdict : Level =>
        exec (.acknowledgeSlot p .dominant verdict) s =
          .next (frameAt s p { f with position := .refused } .released verdict)
      let next := if 0 < length.toNat then Position.byte 0 else .turnaround
      (kind = .notice → 0 < length.toNat →
        ∀ verdict, leaves (.acknowledgeSlot p .dominant verdict) (.byte 0) verdict) ∧
      (kind = .query ∨ (kind = .send ∧ 0 < length.toNat) →
        leaves (.acknowledgeSlot p .dominant .dominant) next .dominant) ∧
      (kind ≠ .notice → stays .recessive) ∧
      (kind ≠ .query → length.toNat = 0 → ∀ verdict, stays verdict)) ∧
    ∀ n, (f.position = .headerSlot ∧ v.verdict = some .accept ∧ n = 0) ∨ (∃ i, f.position = .byteSlot i ∧ n = i + 1) →
      (n < v.expected → slot = .next (frameAt s p { f with position := .byte n } .drivenLow .dominant)) ∧
      (v.expected ≤ n → kind ≠ .query → slot = .next (frameAt s p { f with position := .done } .drivenLow .dominant)) ∧
      ∀ h, v.expected ≤ n → kind = .query → v.hit = some h →
        (h.entry.action = some .replySlot →
          slot =
            .next
              (frameAt s p { f with position := .turnaround, service := some { v with received := [] } } .drivenLow
                .dominant)) ∧
        (h.entry.action = some .defer → v.reservation = none →
          slot =
            .next
              (frameAt s p
                { f with
                  position := .turnaround,
                  service := some { v with turnaround := some (if h.entry.expiry = 0 then .empty else .decline) } }
                .drivenLow .dominant)) ∧
        ∀ r : RcvId, h.entry.action = some .defer → v.reservation = some r → 0 < (s.rcv r).held →
          slot =
            .next
              ((s.setPort p
                { x with
                  state := .holding, bckDriver := .drivenLow, bdaDriver := .drivenLow, bckLowSince := none,
                  bdaLowSince := none, silenceSince := none, nextToken := x.nextToken + 1,
                  window := .waiting
                    { token := x.nextToken, source := Header.source f.rxHeader, channel := f.channel.getD 0,
                      length := v.expected, entry := h.index, ring := r }
                    (if h.entry.expiry = 0 then .empty else .decline)
                    (s.timeBase + BitVec.ofNat 32 x.config.answerLimit),
                  frame := some
                    { f with
                      position := .turnaround, bit := 0, held := true,
                      service := some { v with reservation := none } } }).setRcv r
                { s.rcv r with
                  held := (s.rcv r).held - 1,
                  queue := (s.rcv r).queue ++
                    [{ kind := .queryWaiting, port := p, frameKind := .query, entry := h.index,
                       source := Header.source f.rxHeader, channel := f.channel.getD 0, length := v.expected,
                       token := some x.nextToken, reason := none, slot := none, timestamp := v.verdictTime.getD 0,
                       payload := v.received }] })

/-- R16, R17, R66, R107, R114, R116, R4: what the target of a QUERY gives at the turnaround, and how it sends its reply. That
the rows of the bytes it sends do not look at their operand is notes/assumptions/18.md; that it goes on as it has driven
the turnaround, and after a DECLINE that another station makes read REPLY follows the frame, is notes/assumptions/29.md; how
it follows a frame in which it has been overridden is notes/assumptions/36.md; that BDA is low at the end of the slot after which it closes for an ABORT is
notes/assumptions/17.md, and that an ABORT taken while a slot is in progress ends the reply after that slot is
notes/assumptions/39.md. -/
def Obligations.ServingPortReplies : Prop :=
  ∀ (s : State) (p : PortId) (f : FrameRec) (v : ServiceRec), Plain s p → (s.port p).state = .serving →
    (s.port p).frame = some f → f.service = some v →
    let x := s.port p
    let g := { f with service := some { v with turnaround := none } }
    let sent := fun (c : Instr) (g : FrameRec) (byte : Byte) =>
      exec c s = .next (frameAt s p g (if byte.getLsbD 0 then .released else .drivenLow) (lastLevel byte))
    (∀ presence verdict, f.position = .turnaround →
      let declines : Prop :=
        exec (.turnaroundSlot p presence verdict) s =
          .next
            (frameAt s p
              { g with
                position := if presence = .dominant ∧ verdict = .dominant then .replyLength else .done,
                overridden := presence == .dominant && verdict == .dominant }
              .released verdict)
      let sends := fun bytes : List Byte =>
        exec (.turnaroundSlot p presence verdict) s =
          .next (frameAt s p { g with position := .replyLength, reply := bytes } .drivenLow verdict)
      (v.turnaround = some .decline → declines) ∧
      (v.turnaround = some .empty → sends []) ∧
      (∀ q r, v.turnaround = none → x.window = .replying q .decline r → declines) ∧
      (∀ q r bytes, v.turnaround = none → x.window = .replying q (.reply bytes) r → sends bytes) ∧
      (∀ n : Snapshot, v.turnaround = none → x.window = .none → s.snapshot p = some n → sends n.data)) ∧
    (∀ length, f.overridden = false → f.position = .replyLength → f.reply.length ≤ 64 →
      let own := BitVec.ofNat 8 f.reply.length
      sent (.replyLengthByte p length)
        { f with position := if f.reply = [] then .done else .replyByte 0, replyLength := some own } own) ∧
    (∀ n byte own, f.overridden = false → f.position = .replyByte n → f.reply[n]? = some own →
      sent (.replyByte p byte) { f with position := .replySlot n } own) ∧
    (∀ n presence verdict, f.overridden = false → f.position = .replySlot n →
      (presence = .dominant → verdict = .dominant → f.reply.length ≤ n + 1 →
        exec (.acknowledgeSlot p presence verdict) s =
          .next (frameAt s p { f with position := .done, accepted := f.accepted + 1 } .released verdict)) ∧
      (presence = .dominant → verdict = .dominant → n + 1 < f.reply.length →
        (∀ q y r, x.window = .replying q y r → s.abortPending r = false) →
        exec (.acknowledgeSlot p presence verdict) s =
          .next (frameAt s p { f with position := .replyByte (n + 1), accepted := f.accepted + 1 } .released verdict)) ∧
      (∀ q y r, presence = .dominant → verdict = .dominant → n + 1 < f.reply.length → x.window = .replying q y r →
        s.abortPending r = true →
        exec (.acknowledgeSlot p presence verdict) s =
          .next (frameAt s p { f with position := .closing, accepted := f.accepted + 1 } .drivenLow verdict)) ∧
      (presence = .recessive ∨ verdict = .recessive →
        exec (.acknowledgeSlot p presence verdict) s =
          .next (frameAt s p { f with position := .done } .released verdict))) ∧
    (∀ (bit : Fin 8) (byte : Byte), f.overridden = false →
      (f.position = .replyLength ∧ byte = BitVec.ofNat 8 f.reply.length) ∨
        (∃ n, f.position = .replyByte n ∧ f.reply[n]? = some byte) →
      (byte.getMsbD bit.val = true →
        exec (.overridden p bit) s =
          .next
            (s.setPort p
              { edgeSeen x s.timeBase .dominant bit with
                bdaDriver := .released, frame := some { f with overridden := true, bit := bit.val } })) ∧
      (byte.getMsbD bit.val = false → exec (.overridden p bit) s = .next s)) ∧
    (f.overridden = true →
      let goes := fun (c : Instr) (position : Position) (last : Level) =>
        exec c s = .next (frameAt s p { f with position } x.bdaDriver last)
      (∀ bit, exec (.overridden p bit) s = .next s) ∧
      (∀ length : Byte, f.position = .replyLength →
        exec (.replyLengthByte p length) s =
          .next
            (frameAt s p
              { f with
                position := if 1 ≤ length.toNat ∧ length.toNat ≤ 64 then .replyByte 0 else .done,
                replyLength := some length }
              x.bdaDriver (lastLevel length))) ∧
      (∀ n byte, f.position = .replyByte n → goes (.replyByte p byte) (.replySlot n) (lastLevel byte)) ∧
      ∀ n reply, f.position = .replySlot n → f.replyLength = some reply →
        (n + 1 < reply.toNat → goes (.acknowledgeSlot p .dominant .dominant) (.replyByte (n + 1)) .dominant) ∧
        (reply.toNat ≤ n + 1 → goes (.acknowledgeSlot p .dominant .dominant) .done .dominant) ∧
        ∀ presence verdict, presence = .recessive ∨ verdict = .recessive →
          goes (.acknowledgeSlot p presence verdict) .done verdict)

/-! ### The initiator (chapters 1 to 3) -/

/-- R4, R12, R14 to R18, R51, R64: the sequence of an initiator, slot by slot and byte by byte, with what a frame that was given
up or has an abort pending leads to. How the rows stand to its own bytes is notes/assumptions/18.md; that its part in the
frame is over where its REFUSE on a reply byte reads ACCEPT and the target sends on is notes/assumptions/28.md. R6, R21: BDA
is low for the closing, from when its low time counts, and is so held at the row before it (notes/assumptions/17.md). -/
def Obligations.InitiatorFollowsSequence : Prop :=
  ∀ (s : State) (p : PortId) (r : SubId) (f : FrameRec) (x : StagedXfer) (e : ExecRec), Plain s p →
    (s.port p).state = .initiating → (s.port p).frame = some f → f.turn = some r → s.execOf r = some (x, e) →
    let d := x.desc
    let slot := fun presence verdict => exec (.acknowledgeSlot p presence verdict) s
    let next := fun (g : FrameRec) (n : Nat) =>
      if n < d.outLength then { g with position := .byte n }
      else if d.kind = .query then { g with position := .turnaround }
      else closesWith g .success
    let stops := fun (g : FrameRec) (n : Nat) =>
      if d.outLength ≤ n ∧ d.kind ≠ .query then closesWith g .success else { g with position := .closing, result := none }
    (f.givenUp = false → s.abortPending r = false →
      (f.position = .headerSlot →
        (∀ verdict, slot .recessive verdict = .next (closesAt s p (closesWith f .noTarget) verdict)) ∧
        (d.kind ≠ .notice →
          slot .dominant .recessive = .next (closesAt s p (closesWith f .refused) .recessive)) ∧
        slot .dominant .dominant = .next (goesAt s p (next f 0) .released .dominant) ∧
        (d.kind = .notice → slot .dominant .recessive = .next (goesAt s p (next f 0) .released .recessive))) ∧
      (∀ n, f.position = .byteSlot n →
        let g := { f with moved := n + 1 }
        slot .dominant .dominant = .next (goesAt s p (next g (n + 1)) .released .dominant) ∧
        (d.kind = .notice →
          ∀ presence verdict, slot presence verdict = .next (goesAt s p (next g (n + 1)) .released verdict)) ∧
        (d.kind ≠ .notice →
          slot .dominant .recessive = .next (closesAt s p (closesWith f .refused) .recessive)) ∧
        (d.kind ≠ .notice →
          ∀ verdict, slot .recessive verdict = .next (closesAt s p (closesWith f .framing) verdict))) ∧
      (∀ n byte, f.position = .replyByte n → n < d.replyCapacity →
        exec (.replyByte p byte) s =
          .next
            (frameAt (withExec s r x { e with replyArea := e.replyArea ++ [byte] }) p { f with position := .replySlot n }
              .released (lastLevel byte)))) ∧
    (∀ n byte own, f.position = .byte n → x.payload[n]? = some own →
      exec (.byteReceived p byte) s =
        .next
          (frameAt s p { f with position := .byteSlot n } (if own.getLsbD 0 then .released else .drivenLow)
            (lastLevel own))) ∧
    (f.givenUp = true ∨ s.abortPending r = true →
      (f.position = .headerSlot →
        (∀ verdict, slot .recessive verdict = .next (closesAt s p (closesWith f .noTarget) verdict)) ∧
        (d.kind ≠ .notice →
          slot .dominant .recessive = .next (closesAt s p (closesWith f .refused) .recessive)) ∧
        slot .dominant .dominant = .next (goesAt s p (stops f 0) .released .dominant) ∧
        (d.kind = .notice → slot .dominant .recessive = .next (goesAt s p (stops f 0) .released .recessive))) ∧
      (∀ n, f.position = .byteSlot n →
        let g := { f with moved := n + 1 }
        slot .dominant .dominant = .next (goesAt s p (stops g (n + 1)) .released .dominant) ∧
        (d.kind = .notice →
          ∀ presence verdict, slot presence verdict = .next (goesAt s p (stops g (n + 1)) .released verdict)) ∧
        (d.kind ≠ .notice →
          slot .dominant .recessive = .next (closesAt s p (closesWith f .refused) .recessive)) ∧
        (d.kind ≠ .notice →
          ∀ verdict, slot .recessive verdict = .next (closesAt s p (closesWith f .framing) verdict)))) ∧
    (∀ n byte, f.position = .replyByte n → f.givenUp = true ∨ s.abortPending r = true ∨ d.replyCapacity ≤ n →
      exec (.replyByte p byte) s =
        .next (frameAt s p { f with position := .replySlot n, refusing := true } .released (lastLevel byte))) ∧
    (f.position = .turnaround →
      (∀ verdict,
        exec (.turnaroundSlot p .recessive verdict) s =
          .next (closesAt s p (closesWith f .framing) verdict)) ∧
      exec (.turnaroundSlot p .dominant .recessive) s =
        .next (closesAt s p (closesWith f .refused) .recessive) ∧
      exec (.turnaroundSlot p .dominant .dominant) s =
        .next (frameAt s p { f with position := .replyLength } .released .dominant)) ∧
    (∀ length : Byte, f.position = .replyLength →
      let g := { f with replyLength := some length }
      let takes := fun h : FrameRec =>
        exec (.replyLengthByte p length) s = .next (goesAt s p h (s.port p).bdaDriver (lastLevel length))
      (64 < length.toNat → takes (closesWith g .framing)) ∧
      (length.toNat = 0 → takes (closesWith g .success)) ∧
      (1 ≤ length.toNat → length.toNat ≤ 64 → takes { g with position := .replyByte 0 })) ∧
    ∀ n length presence verdict, f.position = .replySlot n → f.replyLength = some length →
      (f.refusing = false → n + 1 < length.toNat →
        slot presence verdict = .next (frameAt s p { f with position := .replyByte (n + 1) } .drivenLow verdict)) ∧
      (f.refusing = false → length.toNat ≤ n + 1 →
        slot presence verdict = .next (closesAt s p (closesWith f .success) verdict)) ∧
      (f.refusing = true → presence = .recessive ∨ verdict = .recessive ∨ length.toNat ≤ n + 1 →
        slot presence verdict =
          .next
            (closesAt s p
              { f with position := .closing, result := if d.replyCapacity ≤ n then some .truncated else none } verdict)) ∧
      (f.refusing = true → presence = .dominant → verdict = .dominant → n + 1 < length.toNat →
        let res : Option AttemptResult :=
          if f.givenUp = true then some .holdTimeout else if d.replyCapacity ≤ n then some .truncated else none
        let y := observes (s.port p) { f with position := .replyByte (n + 1) } s.timeBase .dominant
        slot presence verdict =
          .next
            ((s.setPort p
              { y with
                stats :=
                  { y.stats with
                    attemptsFailed :=
                      if res ≠ some .truncated ∧ s.abortPending r = false then y.stats.attemptsFailed + 1
                      else y.stats.attemptsFailed } }).endAttempt r res f.moved))

/-- R13, R14, R28, R11, R27, R21: a hold is measured, also a second one in the same slot, and given up after the ceiling; every
other port counts it as time that BCK is low; and a clash, in a bit that the port sends as recessive, ends the attempt.
R4, R11, R12, R16, R17: what the port drives on BDA in the held bit; in the header it is what it drove before
(notes/assumptions/17.md). That BCK's low time counts from a fall that a row has marked, or else from half a bit time before, in
whole µs, is notes/assumptions/7.md; that BCK found low is a hold at every point of the frame is notes/assumptions/30.md. R20, R21: a fall and a rise of a line between the rows of a frame; a
rise of BCK ends a hold and starts the silence time, which does not run while BCK is low (notes/assumptions/7.md). -/
def Obligations.HoldsAndClashesOfInitiator : Prop :=
  ∀ (s : State) (p : PortId) (f : FrameRec), Plain s p → (s.port p).frame = some f →
    let x := s.port p
    (∀ bit : Fin 8,
      let holds := fun bda : Driver =>
        exec (.hold p bit) s =
          .next
            (s.setPort p
              { x with
                frame := some
                  { f with
                    bit := bit.val, held := true,
                    holdSince := if x.state = .initiating then some s.timeBase else f.holdSince },
                bckLowSince := some (lastFall x s.timeBase bit), silenceSince := none, bdaDriver := bda,
                bdaLowSince :=
                  if bda = .drivenLow then some (bdaLowAt x s.timeBase bit)
                  else lowAfterFall x.bdaLowSince (lastFall x s.timeBase bit) })
      let drives := fun byte : Byte => holds (if byte.getMsbD bit.val = true then .released else .drivenLow)
      let accepts : Prop := holds .drivenLow
      let refuses : Prop := holds (if bit = 0 then .drivenLow else .released)
      (x.state = .observing → holds .released) ∧ (x.state = .arbitrating → holds x.bdaDriver) ∧
      (x.state = .initiating →
        (f.position = .headerSlot ∨ (∃ n, f.position = .byteSlot n) ∨ f.position = .turnaround ∨
            f.position = .replyLength ∨ (∃ n, f.position = .replyByte n) →
          holds .released) ∧
        (∀ n, f.position = .replySlot n → (f.refusing = false → accepts) ∧ (f.refusing = true → refuses)) ∧
        (f.position = .closing → holds .drivenLow) ∧
        ∀ r y byte, f.turn = some r → s.stagedOf r = some y →
          (f.position = .channelByte ∧ byte = y.desc.channel) ∨
            (f.position = .lengthByte ∧ byte = BitVec.ofNat 8 y.desc.outLength) ∨
            (∃ n, f.position = .byte n ∧ y.payload[n]? = some byte) →
          drives byte) ∧
      (x.state = .serving →
        (f.position = .channelByte ∨ f.position = .lengthByte ∨ (∃ n, f.position = .byte n) ∨
            (∃ n, f.position = .replySlot n) ∨ f.position = .done ∨ f.position = .refused →
          holds .released) ∧
        ((∃ n, f.position = .byteSlot n) ∨ f.position = .closing → holds .drivenLow) ∧
        (∀ v, f.service = some v →
          (f.position = .headerSlot → v.verdict = some .accept → accepts) ∧
          (f.position = .headerSlot → v.verdict = some .refuse → refuses) ∧
          (f.position = .turnaround →
            (v.turnaround = some .decline → refuses) ∧ (v.turnaround = some .empty → accepts) ∧
            (∀ q r, v.turnaround = none → x.window = .replying q .decline r → refuses) ∧
            (∀ q r bytes, v.turnaround = none → x.window = .replying q (.reply bytes) r → accepts) ∧
            ∀ n : Snapshot, v.turnaround = none → x.window = .none → s.snapshot p = some n → accepts)) ∧
        (f.position = .replyLength ∨ (∃ n, f.position = .replyByte n) → f.overridden = true → holds .released) ∧
        (f.position = .replyLength → f.overridden = false → drives (BitVec.ofNat 8 f.reply.length)) ∧
        ∀ n byte, f.position = .replyByte n → f.overridden = false → f.reply[n]? = some byte → drives byte)) ∧
    (∀ t, x.state = .initiating → f.holdSince = some t → s.timeBase = t + BitVec.ofNat 32 x.config.holdCeiling →
      exec (.holdCeilingPassed p) s = .next (s.setPort p { x with frame := some { f with givenUp := true } })) ∧
    (x.state = .arbitrating ∨ x.state = .observing ∨ x.state = .serving ∨ x.state = .initiating →
      exec (.lineGoesLow p .bck .falls) s =
        .next
          (s.setPort p
            { x with
              bckLowSince := some s.timeBase,
              bdaLowSince := if x.bdaLowSince = none then none else some s.timeBase, silenceSince := none,
              frame := some { f with held := false } }) ∧
      exec (.lineGoesLow p .bck .rises) s =
        .next
          (s.setPort p
            { x with
              bckLowSince := none, silenceSince := some s.timeBase, frame := some { f with holdSince := none } }) ∧
      exec (.lineGoesLow p .bda .falls) s = .next (s.setPort p { x with bdaLowSince := some s.timeBase }) ∧
      exec (.lineGoesLow p .bda .rises) s = .next (s.setPort p { x with bdaLowSince := none })) ∧
    ∀ r y (bit : Fin 8) (byte : Byte), x.state = .initiating → f.turn = some r → s.stagedOf r = some y →
      (f.position = .channelByte ∧ byte = y.desc.channel) ∨
        (f.position = .lengthByte ∧ byte = BitVec.ofNat 8 y.desc.outLength) ∨
        (∃ n, f.position = .byte n ∧ y.payload[n]? = some byte) →
      (byte.getMsbD bit.val = false → exec (.clash p bit) s = .next s) ∧
      (byte.getMsbD bit.val = true →
        exec (.clash p bit) s =
          .next
            ((s.setPort p
              { edgeSeen x s.timeBase .dominant bit with
                state := .observing, bckDriver := .released, bdaDriver := .released, busView := .busy,
                idleSince := none, idleFull := false, recovery := none,
                frame := some { f with role := .observer, bit := bit.val, holdSince := none, turn := none, service := none },
                stats :=
                  { x.stats with
                    clashes := x.stats.clashes + 1,
                    attemptsFailed :=
                      if s.abortPending r = true then x.stats.attemptsFailed
                      else x.stats.attemptsFailed + 1 } }).endAttempt
              r (some .clash) f.moved))

/-- R53, R54, R55, R56, R57, R62, R65: the end of an attempt, by its result. An attempt that is closed at the point of an ABORT
has no result of R53; that its last result then stays as it was is notes/assumptions/14.md. R67: an ABORT that waits
completes after the descriptor. R71, R74, R76: the target's entry, which is not updated where SET_PORT has since given its
number to the port itself (notes/assumptions/33.md). -/
def Obligations.AttemptEndDecidesFate : Prop :=
  ∀ (s : State) (r : SubId) (p : PortId) (c : CplId) (x : StagedXfer) (e : ExecRec) (res : AttemptResult) (moved : Nat)
    (abort : Option (BitVec 16 × Status)),
    s.execOf r = some (x, e) → (s.sub r).port = some p → (s.sub r).completion = some c → AbortWaits s r abort →
    e.attempts ≤ 15 →
    let d := x.desc
    let good := res = .success ∨ res = .truncated
    let own := d.dest = (s.port p).config.station
    let n := if d.kind = .query then (if res = .success ∨ res = .truncated then e.replyArea.length else 0) else moved
    let e1 := { e with attempts := min 15 (e.attempts + 1), lastResult := some res, lastBytes := n }
    let s1 := withExec s r x e1
    let ends := fun t : State => s.endAttempt r (some res) moved = t
    let told := fun health : State => completed health r c (execEntry s1 r x e1 res.status n) abort
    (res = .busStuck → ends (completed s1 r c (execEntry s1 r x e1 .busStuck n) abort)) ∧
    (s.abortPending r = false → ¬ good → res ≠ .busStuck →
      (e.deadlinePassed = true → ends (completed s1 r c (execEntry s1 r x e1 .expired n) abort)) ∧
      (e.deadlinePassed = false → e.limit ≠ 0 → e.limit ≤ e1.attempts →
        ((d.kind = .send ∨ d.kind = .query) → res ≠ .clash → ¬ own → ends (told (s1.targetFailure p d.dest))) ∧
        (d.kind = .notice ∨ res = .clash ∨ own → ends (told s1))) ∧
      (e.deadlinePassed = false → e.limit = 0 ∨ e1.attempts < e.limit →
        ends (withExec s r x { e1 with state := .eligible }))) ∧
    (s.abortPending r = false → good →
      (d.kind = .query → 1 ≤ n → ends (withExec s r x { e1 with state := .storing })) ∧
      ((d.kind = .send ∨ (d.kind = .query ∧ n = 0)) → ¬ own → ends (told (s1.targetSuccess p d.dest))) ∧
      (d.kind = .notice ∨ ((d.kind = .send ∨ (d.kind = .query ∧ n = 0)) ∧ own) → ends (told s1))) ∧
    (s.abortPending r = true →
      let kept := if d.kind = .query then 0 else moved
      let aborted := fun last : Option AttemptResult =>
        let e2 := { e with attempts := min 15 (e.attempts + 1), lastResult := last, lastBytes := kept }
        completed (withExec s r x e2) r c (execEntry (withExec s r x e2) r x e2 .aborted kept) abort
      (res ≠ .busStuck → ends (aborted (some res))) ∧
      s.endAttempt r none moved = aborted e.lastResult)

/-! ### The ends of frames (chapters 1, 2, 5 and 6) -/

/-- R6, R19, R26, R27, R29, R30, R66, R95, R96, R106, R108, R114, R116, R118, R168: a closing, by what the port was doing. A
closing between the decision of ACCEPT and the header slot counts in frames_served too (notes/assumptions/38.md). A frame
that was given up ends HOLD_TIMEOUT whatever its slots led to (notes/assumptions/20.md), and a closing before an arbitration
loss ends the turn without a loss (notes/assumptions/9.md). Every port that closes a frame goes to IDLE; a closing at a
RECOVERING or FAULTED port is in RecoveryFreesOrFaultsPort. -/
def Obligations.ClosingEndsFrame : Prop :=
  ∀ (s : State) (p : PortId), Plain s p →
    let x := s.port p
    let now := some s.timeBase
    (x.state = .idle →
      exec (.closing p) s =
        .next (s.setPort p { x with idleSince := now, idleFull := false, bckLowSince := none, bdaLowSince := none })) ∧
    ∀ f, x.frame = some f →
      (x.state = .observing ∨ (x.state = .arbitrating ∧ f.turn = none) →
        exec (.closing p) s = .next (s.setPort p (idleAfter x now))) ∧
      (∀ r y e c abort, x.state = .arbitrating → f.turn = some r → s.execOf r = some (y, e) → (s.sub r).port = some p →
        (s.sub r).completion = some c → AbortWaits s r abort →
        exec (.closing p) s = .next (turnOver (s.setPort p (idleAfter x now)) r c y e abort)) ∧
      (∀ r res, x.state = .initiating → f.turn = some r →
        (f.givenUp = true ∧ res = some .holdTimeout) ∨ (f.givenUp = false ∧ f.position = .closing ∧ f.result = res) ∨
          (f.givenUp = false ∧ f.position ≠ .closing ∧ res = some .framing) →
        exec (.closing p) s =
          .next
            ((s.setPort p
              { idleAfter x now with
                stats :=
                  { x.stats with
                    attemptsFailed :=
                      if (res.getD .framing).failed = true ∧ s.abortPending r = false then x.stats.attemptsFailed + 1
                      else x.stats.attemptsFailed } }).endAttempt r res f.moved)) ∧
      ∀ v, x.state = .serving → f.service = some v →
        let t := (s.setPort p
          { idleAfter x now with stats := { x.stats with framesServed := x.stats.framesServed + 1 } }).setSnapshot p none
        let u := (s.setPort p
          { idleAfter x now with
            window := .none, stats := { x.stats with framesServed := x.stats.framesServed + 1 } }).setSnapshot p none
        (v.verdict ≠ some .accept →
          exec (.closing p) s = .next ((s.setPort p (idleAfter x now)).setSnapshot p none)) ∧
        (v.verdict = some .accept → f.position ≠ .done → isReplying x.window = false →
          exec (.closing p) s = .next (t.release v.reservation)) ∧
        (∀ q reply r c y abort, v.verdict = some .accept → f.position ≠ .done → x.window = .replying q reply r →
          s.stagedOf r = some y → (s.sub r).completion = some c → AbortWaits s r abort →
          (f.position = .closing →
            exec (.closing p) s =
              .next (completed u r c { plainEntry u r y.desc.tag .aborted with bytes := f.accepted } abort)) ∧
          (f.position ≠ .closing →
            exec (.closing p) s =
              .next (queryDropped (u.release v.reservation) p q r c y f.accepted .withdrawn abort))) ∧
        ∀ h, v.verdict = some .accept → f.position = .done → v.hit = some h →
          (h.entry.action = some .replySlot → exec (.closing p) s = .next t) ∧
          (h.entry.action = some .defer → isReplying x.window = false → exec (.closing p) s = .next t) ∧
          (h.entry.action = some .deliver → v.reservation = none → v.discard = false → exec (.closing p) s = .next t) ∧
          (∀ r : RcvId, h.entry.action = some .deliver → v.reservation = none → v.discard = true →
            r.val = h.entry.targetRing.toNat → (s.rcv r).state ≠ .active → exec (.closing p) s = .next t) ∧
          (∀ r, h.entry.action = some .deliver → v.reservation = some r → 0 < (s.rcv r).held →
            exec (.closing p) s =
              .next
                (t.setRcv r
                  { s.rcv r with
                    held := (s.rcv r).held - 1,
                    queue := (s.rcv r).queue ++
                      [{ kind := .frame, port := p, frameKind := Header.frameKind f.rxHeader, entry := h.index,
                         source := Header.source f.rxHeader, channel := f.channel.getD 0, length := v.expected,
                         token := none, reason := none, slot := none, timestamp := v.verdictTime.getD 0,
                         payload := v.received }] })) ∧
          (∀ r : RcvId, h.entry.action = some .deliver → v.reservation = none → v.discard = true →
            r.val = h.entry.targetRing.toNat → (s.rcv r).state = .active → (s.rcv r).lost ≤ 65535 →
            exec (.closing p) s = .next (t.setRcv r { s.rcv r with lost := min 65535 ((s.rcv r).lost + 1) })) ∧
          (∀ i : SlotId, h.entry.action = some .slotWrite → i.val = h.entry.slot.toNat →
            let written := t.setReply i { s.reply i with loaded := true, data := v.received }
            (h.entry.notifyRing = none → exec (.closing p) s = .next written) ∧
            ∀ (b : Byte) (r : RcvId), h.entry.notifyRing = some b → r.val = b.toNat →
              exec (.closing p) s =
                .next
                  (written.claimAtPosting r
                    { kind := .slotWritten, port := p, frameKind := Header.frameKind f.rxHeader, entry := h.index,
                      source := Header.source f.rxHeader, channel := f.channel.getD 0, length := v.received.length,
                      token := none, reason := none, slot := some i, timestamp := s.timeBase, payload := [] })) ∧
          ∀ q reply r c y abort, h.entry.action = some .defer → x.window = .replying q reply r → s.stagedOf r = some y →
            (s.sub r).completion = some c → AbortWaits s r abort →
            exec (.closing p) s =
              .next
                (completed u r c
                  { plainEntry u r y.desc.tag (if s.abortPending r = true then .aborted else .success) with
                    bytes := f.accepted }
                  abort)

/-- R20, R26, R29, R30, R97, R118: a frame breaks at a receiver, by each of its causes, while a reply is in progress too; the
initiator's frame that breaks ends its attempt FRAMING or, given up, HOLD_TIMEOUT (notes/assumptions/10.md), and before a
loss its turn (notes/assumptions/9.md). From when BDA's low time counts after silence, a falling BDA and a length above 64
is notes/assumptions/24.md. Where no silence time runs, because BCK is low, silence does not break the frame
(notes/assumptions/6.md). -/
def Obligations.BrokenFramesAreDropped : Prop :=
  ∀ (s : State) (p : PortId) (f : FrameRec), Plain s p → (s.port p).frame = some f →
    let x := s.port p
    let receives := x.state = .observing ∨ x.state = .serving ∨ (x.state = .arbitrating ∧ f.turn = none)
    let low := fun cause : BreakCause => if cause = .rise then none else some s.timeBase
    (∀ bda, x.silenceSince = none → exec (.frameSilence p bda) s = .next s) ∧
    (receives → isReplying x.window = false →
      (∀ cause, exec (.frameBroken p cause) s = .next (frameBroke s p f (low cause))) ∧
      ∀ t, x.silenceSince = some t → s.timeBase = t + BitVec.ofNat 32 (64 * x.config.rate.bitTime) →
        exec (.frameSilence p .recessive) s = .next (frameBroke s p f none) ∧
        exec (.frameSilence p .dominant) s = .next (frameBroke s p f (some (x.bdaLowSince.getD t)))) ∧
    (∀ q reply r c y abort, receives → x.window = .replying q reply r → s.stagedOf r = some y →
      (s.sub r).completion = some c → AbortWaits s r abort →
      let dropped := fun since : Option Time =>
        let t := frameBroke s p f since
        queryDropped (t.setPort p { t.port p with window := .none }) p q r c y f.accepted .withdrawn abort
      (∀ cause, exec (.frameBroken p cause) s = .next (dropped (low cause))) ∧
      ∀ t, x.silenceSince = some t → s.timeBase = t + BitVec.ofNat 32 (64 * x.config.rate.bitTime) →
        exec (.frameSilence p .recessive) s = .next (dropped none) ∧
        exec (.frameSilence p .dominant) s = .next (dropped (some (x.bdaLowSince.getD t)))) ∧
    (∀ length : Byte, x.state = .observing ∨ x.state = .serving → isReplying x.window = false →
      f.position = .lengthByte → 64 < length.toNat →
      exec (.headerVerdict p length) s =
        .next (frameBroke s p f (if length.getLsbD 0 then none else some (bdaLowAt x s.timeBase)))) ∧
    (∀ r y e c abort cause, x.state = .arbitrating → f.turn = some r → s.execOf r = some (y, e) → (s.sub r).port = some p →
      (s.sub r).completion = some c → AbortWaits s r abort →
      exec (.frameBroken p cause) s =
        .next
          (turnOver
            (s.setPort p
              { idleAfter x (if cause = .rise then some s.timeBase else none) with bdaLowSince := low cause })
            r c y e abort)) ∧
    ∀ r cause, x.state = .initiating → f.turn = some r →
      exec (.frameBroken p cause) s =
        .next
          ((s.setPort p
            { idleAfter x (if cause = .rise then some s.timeBase else none) with
              bdaLowSince := low cause,
              stats :=
                { x.stats with
                  attemptsFailed :=
                    if s.abortPending r = true then x.stats.attemptsFailed else x.stats.attemptsFailed + 1 } }).endAttempt
            r (some (if f.givenUp = true then .holdTimeout else .framing)) f.moved)

/-! ### Idle gap, stuck lines and recovery (chapters 1 and 2) -/

/-- R7, R21, R36 to R39, R46, R47, R54, R56, R97, R119: the idle gap, a line that goes low and is high again, a stuck condition
in every state that acts on one, and the recovery procedure, in which the low times of the lines go on and count anew from each
fall of BCK, the port's own pulls among them (notes/assumptions/7.md). R134: a RECOVER
completes before the descriptors of the same happening (notes/assumptions/32.md). A FREE bus view stays FREE as a line falls
(notes/assumptions/31.md). Both drivers are low at the pulse's rise that begins the closing, which R38 has half a bit time
later. A late rise of BCK in the closing releases the driver of BCK, and that of BDA stays low in State until the row CLOSING,
although R38 releases BDA a quarter of a bit time after the rise, from when the wait for BDA counts (notes/assumptions/17.md).
R6: a closing in the gap starts the gap anew. That one between two pulses ends BDA's low time alone, that one at a FAULTED
port ends the low times alone, and that half and a quarter of a bit time are counted in whole µs, is notes/assumptions/7.md;
that the silence time counts from an opening that ends the idle gap is notes/assumptions/26.md. -/
def Obligations.RecoveryFreesOrFaultsPort : Prop :=
  ∀ (s : State) (p : PortId), Plain s p →
    let x := s.port p
    let now := s.timeBase
    let bit := BitVec.ofNat 32 x.config.rate.bitTime
    let half := BitVec.ofNat 32 (x.config.rate.bitTime / 2)
    let quarter := BitVec.ofNat 32 (x.config.rate.bitTime / 4)
    let limit := BitVec.ofNat 32 (1000 * x.config.stuckLimit)
    (x.state = .idle →
      (x.idleSince = none ∨ x.idleFull = true → exec (.idleGap p) s = .next s) ∧
      (∀ t, x.idleSince = some t → x.idleFull = false → now = t + BitVec.ofNat 32 (8 * x.config.rate.bitTime) →
        exec (.idleGap p) s =
          .next (s.setPort p { x with busView := .free, idleFull := true, bckLowSince := none, bdaLowSince := none }))) ∧
    (x.idleSince = none → s.idleTime p = 0) ∧
    (∀ t, x.idleSince = some t →
      (x.idleFull = true → s.idleTime p = 8 * x.config.rate.bitTime) ∧
      (x.idleFull = false → s.idleTime p = min (now - t).toNat (8 * x.config.rate.bitTime))) ∧
    (x.state = .idle ∨ (x.state = .recovering ∧ x.recovery.map (·.phase) = some .gap) → x.idleSince = none →
      exec (.lineGoesLow p .bck .rises) s =
        .next
          (s.setPort p
            { x with
              bckLowSince := none, idleSince := if x.bdaLowSince = none then some now else none,
              idleFull := if x.bdaLowSince = none then false else x.idleFull }) ∧
      exec (.lineGoesLow p .bda .rises) s =
        .next
          (s.setPort p
            { x with
              bdaLowSince := none, idleSince := if x.bckLowSince = none then some now else none,
              idleFull := if x.bckLowSince = none then false else x.idleFull })) ∧
    (x.state = .idle ∨ x.state = .recovering ∨ x.state = .faulted →
      exec (.lineGoesLow p .bck .falls) s =
        .next
          (s.setPort p
            { x with
              idleSince := none, idleFull := false, bckLowSince := some now,
              bdaLowSince := x.bdaLowSince.map fun _ => now }) ∧
      exec (.lineGoesLow p .bda .falls) s =
        .next (s.setPort p { x with idleSince := none, idleFull := false, bdaLowSince := some now })) ∧
    (x.state = .faulted →
      exec (.lineGoesLow p .bck .rises) s = .next (s.setPort p { x with bckLowSince := none }) ∧
      exec (.lineGoesLow p .bda .rises) s = .next (s.setPort p { x with bdaLowSince := none }) ∧
      exec (.closing p) s = .next (s.setPort p { x with bckLowSince := none, bdaLowSince := none })) ∧
    (x.state = .off ∨ x.state = .holding ∨ x.state = .recovering ∨ x.state = .faulted →
      ∀ line, exec (.stuckCondition p line) s = .next s) ∧
    (∀ line t, LowSince x line t → now = t + limit →
      let y := match line with
        | .bck => { x with bckLowSince := some t, bdaLowSince := lowAfterFall x.bdaLowSince t }
        | .bda => { x with bdaLowSince := some t }
      let stuck := { recovers y now with stats := { x.stats with stuckEvents := x.stats.stuckEvents + 1 } }
      let u := (s.setPort p stuck).setSnapshot p none
      (x.state = .idle ∨ x.state = .observing ∨ (x.state = .arbitrating ∧ x.frame.bind (·.turn) = none) →
        exec (.stuckCondition p line) s = .next u) ∧
      (∀ f r y e c abort, x.frame = some f → f.turn = some r → s.execOf r = some (y, e) → (s.sub r).port = some p →
        (s.sub r).completion = some c → AbortWaits s r abort →
        (x.state = .arbitrating →
          exec (.stuckCondition p line) s =
            .next (completed u r c (execEntry s r y e .busStuck e.lastBytes) abort)) ∧
        (x.state = .initiating → e.attempts ≤ 15 →
          let n := if y.desc.kind = .query then 0 else f.moved
          let e1 := { e with attempts := min 15 (e.attempts + 1), lastResult := some .busStuck, lastBytes := n }
          exec (.stuckCondition p line) s =
            .next (completed (withExec u r y e1) r c (execEntry s r y e1 .busStuck n) abort))) ∧
      ∀ f, x.state = .serving → x.frame = some f →
        let released := u.release (f.service.bind (·.reservation))
        (isReplying x.window = false → exec (.stuckCondition p line) s = .next released) ∧
        ∀ q reply r y c abort, x.window = .replying q reply r → s.stagedOf r = some y → (s.sub r).completion = some c →
          AbortWaits s r abort →
          exec (.stuckCondition p line) s =
            .next
              (queryDropped (released.setPort p { stuck with window := .none }) p q r c y f.accepted .busStuck abort)) ∧
    ∀ v, x.state = .recovering → x.recovery = some v →
      let goes := fun (c : Instr) (y : Port) => exec c s = .next (s.setPort p y)
      let ends := fun (c : Instr) (y : Port) (status : Status) (after : State → State) =>
        (s.admin ≠ .recovering p → exec c s = .next (after (s.setPort p y))) ∧
        ∀ tag cmd, s.admin = .recovering p → (s.sub 0).occupancy = .staged → (s.sub 0).staged = some (.admin tag cmd) →
          (s.sub 0).completion = some 0 → exec c s = .next (after (commandEnds (s.setPort p y) tag status))
      let fails := fun (c : Instr) (bckLow bdaLow : Option Time) =>
        ends c { idleAfter x none with state := .faulted, bckLowSince := bckLow, bdaLowSince := bdaLow } .portBusy
          (·.portDown p)
      let frees := fun (c : Instr) (y : Port) => ends c y .success (·.recheckHeld p)
      (v.phase = .waiting ∨ v.phase = .clocking →
        goes (.clockPulse p .recessive)
          { x with
            recovery := some { phase := .closing, pulses := v.pulses + 1, waitSince := now + bit },
            bckDriver := .drivenLow, bdaDriver := .drivenLow, bckLowSince := some (now + half),
            bdaLowSince := some (now + half) } ∧
        (v.pulses + 1 < 16 →
          goes (.clockPulse p .dominant)
            { x with
              recovery := some { phase := .clocking, pulses := v.pulses + 1, waitSince := now + bit },
              bckLowSince := some (now + half), bdaLowSince := some (now + half) } ∧
          exec (.recoveryFailed p .bda) s = .next s) ∧
        (16 ≤ v.pulses + 1 →
          fails (.clockPulse p .dominant) none
            (some (bdaLowAt (if v.phase = .waiting then { x with bckLowSince := none } else x) now)))) ∧
      (v.phase = .clocking → 16 ≤ v.pulses + 1 → fails (.recoveryFailed p .bda) none (some (bdaLowAt x now))) ∧
      (v.phase = .waiting → now = v.waitSince + limit → fails (.recoveryFailed p .bck) x.bckLowSince x.bdaLowSince) ∧
      (v.phase = .clocking ∨ v.phase = .closing → now = v.waitSince + limit →
        let fall := x.bckLowSince.getD (v.waitSince - half)
        fails (.recoveryFailed p .bck) (some fall) (lowAfterFall x.bdaLowSince fall)) ∧
      (v.phase = .closing → now = v.waitSince + quarter + limit →
        fails (.recoveryFailed p .bda) none x.bdaLowSince) ∧
      (v.phase = .releasing →
        (now = v.waitSince + limit → fails (.recoveryFailed p .bda) x.bckLowSince x.bdaLowSince) ∧
        exec (.recoveryFailed p .bck) s = .next s) ∧
      (∀ line t, v.phase = .gap → (match line with | .bck => x.bckLowSince | .bda => x.bdaLowSince) = some t →
        now = t + limit → fails (.recoveryFailed p line) x.bckLowSince x.bdaLowSince) ∧
      (v.phase = .waiting →
        goes (.lineGoesLow p .bck .rises)
          { x with
            bckLowSince := some now, bdaLowSince := x.bdaLowSince.map fun _ => now,
            recovery := some { phase := .clocking, pulses := 0, waitSince := now + half } }) ∧
      (v.phase = .closing →
        goes (.lineGoesLow p .bck .rises)
          { x with
            bckLowSince := none, bckDriver := .released,
            recovery := some { v with phase := .releasing, waitSince := now + quarter } }) ∧
      (v.phase = .closing ∨ v.phase = .releasing →
        goes (.closing p)
          { x with
            recovery := some { v with phase := .gap }, idleSince := some now, idleFull := false, bckLowSince := none,
            bdaLowSince := none, bckDriver := .released, bdaDriver := .released }) ∧
      (v.phase = .gap →
        goes (.closing p)
          { x with idleSince := some now, idleFull := false, bckLowSince := none, bdaLowSince := none }) ∧
      (v.phase = .clocking → goes (.closing p) { x with bdaLowSince := none }) ∧
      (v.phase = .waiting → exec (.closing p) s = .next s) ∧
      (∀ t, v.phase = .gap → x.idleSince = some t → now = t + BitVec.ofNat 32 (8 * x.config.rate.bitTime) →
        frees (.idleGap p) { idleAfter x (some t) with busView := .free, idleFull := true }) ∧
      (v.phase = .gap → frees (.opening p) (opened x now))

/-! ### The answer window (chapter 6) -/

/-- R113, R115, R116, R117: a staged ANSWER is latched by the window that waits for its token and is otherwise too late; the
answer limit ends the wait with the expiry answer and a QUERY_CLOSED record. That the time base has then reached the
limit is the model's way of taking a timed happening (notes/assumptions/6.md); that the silence time, or BCK's low time where
another station keeps it low, counts from the port's release of BCK is notes/assumptions/7.md. -/
def Obligations.AnswerWindowLatchesOrExpires : Prop :=
  ∀ (s : State) (p : PortId) (bck : Level), s.live = true →
    let x := s.port p
    let released : Port :=
      { x with
        state := .serving, bckDriver := .released, bdaLowSince := some s.timeBase,
        bckLowSince := if bck = .dominant then some s.timeBase else none,
        silenceSince := if bck = .recessive then some s.timeBase else none }
    (∀ r y c, s.stagedOf r = some y → (s.sub r).port = some p → (s.sub r).completion = some c → NoAbortWaits s r →
      y.desc.kind = .answer → s.latched r = false →
      (∀ q expiry due, x.window = .waiting q expiry due → q.token = y.desc.token →
        exec (.answerTaken r bck) s =
          .next
            (s.setPort p
              { released with window := .replying q (if y.desc.decline then .decline else .reply y.payload) r })) ∧
      ((∀ q expiry due, x.window = .waiting q expiry due → q.token ≠ y.desc.token) →
        exec (.answerTaken r bck) s = .next (handedOver s r c (plainEntry s r y.desc.tag .tooLate)))) ∧
    ∀ q expiry f v, Plain s p → x.state = .holding → x.window = .waiting q expiry s.timeBase → x.frame = some f →
      f.service = some v →
      exec (.answerLimitExpiry p bck) s =
        .next
          ((s.setPort p
            { released with
              window := .none,
              frame := some { f with service := some { v with turnaround := some expiry } } }).claimAtPosting q.ring
            (closedRecord p q .expired s.timeBase))

/-! ### Rules of the whole device -/

/-- R83, R99, R100; R32, R33; R153; R48, R51: the tables that commands configure are changed by those
commands and by the resets alone. -/
def Obligations.TablesChangeOnlyByTheirCommands : Prop :=
  ∀ (c : Instr) (s t : State), exec c s = .next t → resets c = false →
    (c ≠ .setMatch → c ≠ .clearMatch → t.entries = s.entries) ∧
    (c ≠ .setPort → ∀ p, (t.port p).config = (s.port p).config) ∧
    (c ≠ .setVector → ∀ v,
      (t.vector v).address = (s.vector v).address ∧ (t.vector v).data = (s.vector v).data ∧
      (t.vector v).masked = (s.vector v).masked) ∧
    ((∀ p, c ≠ .schedulerChoice p true) → t.roundRobin = s.roundRobin)

/-- The invariants of Sys2Proof/Safety.lean hold after power-on. -/
def Obligations.ResetMeetsInvariants : Prop :=
  CauseMatches State.reset ∧ HealthBounded State.reset ∧ CountsBounded State.reset ∧
  SubmissionRingsPlaced State.reset ∧ ReceiveSlotsCovered State.reset ∧ CreditsCovered State.reset ∧
  CoalescingLawful State.reset ∧ PortsShaped State.reset ∧ OneAttempt State.reset

/-- R68: the health table never holds more than 64 entries, nor two with the same port and station. -/
def Obligations.HealthTableStaysBounded : Prop :=
  ∀ s t : State, HealthBounded s → step s = .next t → HealthBounded t

/-- R44, R68, R144, R163, R148: the counts that saturate stay within their maximum, and the coalescing states stay
lawful. -/
def Obligations.CountsAndCoalescingStayLawful : Prop :=
  ∀ s t : State, CountsBounded s → CoalescingLawful s → step s = .next t → CountsBounded t ∧ CoalescingLawful t

/-- R121, R122, R125: the indices of a submission ring that is not ABSENT stay inside its slots. -/
def Obligations.SubmissionRingsStayPlaced : Prop :=
  ∀ s t : State, SubmissionRingsPlaced s → step s = .next t → SubmissionRingsPlaced t

/-- R157, R158: no receive ring ever promises more slots than it has. -/
def Obligations.ReceiveSlotsStayCovered : Prop :=
  ∀ s t : State, ReceiveSlotsCovered s → step s = .next t → ReceiveSlotsCovered t

/-- R123, R127, R142, R143: a completion always finds its slot, because every ring that is not EMPTY holds a credit. -/
def Obligations.CompletionCreditsStayCovered : Prop :=
  ∀ s t : State, CreditsCovered s → step s = .next t → CreditsCovered t

/-- R23, R31, R110: what a port's state fixes of its frame record, its role, its drivers and its window stays so. -/
def Obligations.PortsStayShaped : Prop :=
  ∀ s t : State, PortsShaped s → step s = .next t → PortsShaped t

/-- R25, R51: a descriptor is IN_ATTEMPT only while the frame of its port is its own, so that a port never has two
attempts at once. -/
def Obligations.OneAttemptPerPort : Prop :=
  ∀ s t : State, OneAttempt s → OccupiedRingsNamed s → step s = .next t → OneAttempt t ∧ OccupiedRingsNamed t
end

