-- ==== Sys2Proof/Laws/State.lean ====
section
/-!
SUPPORT. One lemma per field and accessor of State for each of its updates, so that no later proof unfolds a record
update: what an update leaves as it was, and what reading back the updated part gives.
-/
namespace Sys2Proof.Machine

variable (s : State)

/-! ### State.setPort -/

@[simp] theorem State.setPort_engine (p : PortId) (x : Port) : (s.setPort p x).engine = s.engine := rfl
@[simp] theorem State.setPort_cause (p : PortId) (x : Port) : (s.setPort p x).cause = s.cause := rfl
@[simp] theorem State.setPort_notes (p : PortId) (x : Port) : (s.setPort p x).notes = s.notes := rfl
@[simp] theorem State.setPort_setupAddress (p : PortId) (x : Port) : (s.setPort p x).setupAddress = s.setupAddress := rfl
@[simp] theorem State.setPort_timeBase (p : PortId) (x : Port) : (s.setPort p x).timeBase = s.timeBase := rfl
@[simp] theorem State.setPort_setupRead (p : PortId) (x : Port) : (s.setPort p x).setupRead = s.setupRead := rfl
@[simp] theorem State.setPort_admin (p : PortId) (x : Port) : (s.setPort p x).admin = s.admin := rfl
@[simp] theorem State.setPort_roundRobin (p : PortId) (x : Port) : (s.setPort p x).roundRobin = s.roundRobin := rfl
@[simp] theorem State.setPort_subs (p : PortId) (x : Port) : (s.setPort p x).subs = s.subs := rfl
@[simp] theorem State.setPort_cpls (p : PortId) (x : Port) : (s.setPort p x).cpls = s.cpls := rfl
@[simp] theorem State.setPort_rcvs (p : PortId) (x : Port) : (s.setPort p x).rcvs = s.rcvs := rfl
@[simp] theorem State.setPort_vectors (p : PortId) (x : Port) : (s.setPort p x).vectors = s.vectors := rfl
@[simp] theorem State.setPort_messages (p : PortId) (x : Port) : (s.setPort p x).messages = s.messages := rfl
@[simp] theorem State.setPort_health (p : PortId) (x : Port) : (s.setPort p x).health = s.health := rfl
@[simp] theorem State.setPort_entries (p : PortId) (x : Port) : (s.setPort p x).entries = s.entries := rfl
@[simp] theorem State.setPort_replies (p : PortId) (x : Port) : (s.setPort p x).replies = s.replies := rfl
@[simp] theorem State.setPort_snapshots (p : PortId) (x : Port) : (s.setPort p x).snapshots = s.snapshots := rfl
@[simp] theorem State.setPort_pending (p : PortId) (x : Port) : (s.setPort p x).pending = s.pending := rfl
@[simp] theorem State.setPort_sub (p : PortId) (x : Port) (k : SubId) : (s.setPort p x).sub k = s.sub k := rfl
@[simp] theorem State.setPort_cpl (p : PortId) (x : Port) (k : CplId) : (s.setPort p x).cpl k = s.cpl k := rfl
@[simp] theorem State.setPort_rcv (p : PortId) (x : Port) (k : RcvId) : (s.setPort p x).rcv k = s.rcv k := rfl
@[simp] theorem State.setPort_vector (p : PortId) (x : Port) (k : VecId) : (s.setPort p x).vector k = s.vector k := rfl
@[simp] theorem State.setPort_entry (p : PortId) (x : Port) (k : MatchId) : (s.setPort p x).entry k = s.entry k := rfl
@[simp] theorem State.setPort_reply (p : PortId) (x : Port) (k : SlotId) : (s.setPort p x).reply k = s.reply k := rfl
@[simp] theorem State.setPort_snapshot (p : PortId) (x : Port) (k : PortId) : (s.setPort p x).snapshot k = s.snapshot k := rfl
@[simp] theorem State.setPort_position (p : PortId) (x : Port) (k : PortId) (j : Fin 8) : (s.setPort p x).position k j = s.position k j := rfl
@[simp] theorem State.setPort_live (p : PortId) (x : Port) : (s.setPort p x).live = s.live := rfl
@[simp] theorem State.setPort_port_self (p : PortId) (x : Port) : (s.setPort p x).port p = x := by
  simp [State.setPort, State.port]
theorem State.setPort_port_ne (p : PortId) (x : Port) (k : PortId) (h : k ≠ p) : (s.setPort p x).port k = s.port k := by
  simp [State.setPort, State.port, Ne.symm (Fin.val_ne_of_ne h)]
theorem State.setPort_port_eq (p : PortId) (x : Port) (k : PortId) : (s.setPort p x).port k = if k = p then x else s.port k := by
  by_cases h : k = p
  · subst h; simp
  · simp [State.setPort_port_ne _ _ _ _ h, h]

/-! ### State.setSub -/

@[simp] theorem State.setSub_engine (r : SubId) (x : SubRing) : (s.setSub r x).engine = s.engine := rfl
@[simp] theorem State.setSub_cause (r : SubId) (x : SubRing) : (s.setSub r x).cause = s.cause := rfl
@[simp] theorem State.setSub_notes (r : SubId) (x : SubRing) : (s.setSub r x).notes = s.notes := rfl
@[simp] theorem State.setSub_setupAddress (r : SubId) (x : SubRing) : (s.setSub r x).setupAddress = s.setupAddress := rfl
@[simp] theorem State.setSub_timeBase (r : SubId) (x : SubRing) : (s.setSub r x).timeBase = s.timeBase := rfl
@[simp] theorem State.setSub_setupRead (r : SubId) (x : SubRing) : (s.setSub r x).setupRead = s.setupRead := rfl
@[simp] theorem State.setSub_admin (r : SubId) (x : SubRing) : (s.setSub r x).admin = s.admin := rfl
@[simp] theorem State.setSub_ports (r : SubId) (x : SubRing) : (s.setSub r x).ports = s.ports := rfl
@[simp] theorem State.setSub_roundRobin (r : SubId) (x : SubRing) : (s.setSub r x).roundRobin = s.roundRobin := rfl
@[simp] theorem State.setSub_cpls (r : SubId) (x : SubRing) : (s.setSub r x).cpls = s.cpls := rfl
@[simp] theorem State.setSub_rcvs (r : SubId) (x : SubRing) : (s.setSub r x).rcvs = s.rcvs := rfl
@[simp] theorem State.setSub_vectors (r : SubId) (x : SubRing) : (s.setSub r x).vectors = s.vectors := rfl
@[simp] theorem State.setSub_messages (r : SubId) (x : SubRing) : (s.setSub r x).messages = s.messages := rfl
@[simp] theorem State.setSub_health (r : SubId) (x : SubRing) : (s.setSub r x).health = s.health := rfl
@[simp] theorem State.setSub_entries (r : SubId) (x : SubRing) : (s.setSub r x).entries = s.entries := rfl
@[simp] theorem State.setSub_replies (r : SubId) (x : SubRing) : (s.setSub r x).replies = s.replies := rfl
@[simp] theorem State.setSub_snapshots (r : SubId) (x : SubRing) : (s.setSub r x).snapshots = s.snapshots := rfl
@[simp] theorem State.setSub_pending (r : SubId) (x : SubRing) : (s.setSub r x).pending = s.pending := rfl
@[simp] theorem State.setSub_port (r : SubId) (x : SubRing) (k : PortId) : (s.setSub r x).port k = s.port k := rfl
@[simp] theorem State.setSub_cpl (r : SubId) (x : SubRing) (k : CplId) : (s.setSub r x).cpl k = s.cpl k := rfl
@[simp] theorem State.setSub_rcv (r : SubId) (x : SubRing) (k : RcvId) : (s.setSub r x).rcv k = s.rcv k := rfl
@[simp] theorem State.setSub_vector (r : SubId) (x : SubRing) (k : VecId) : (s.setSub r x).vector k = s.vector k := rfl
@[simp] theorem State.setSub_entry (r : SubId) (x : SubRing) (k : MatchId) : (s.setSub r x).entry k = s.entry k := rfl
@[simp] theorem State.setSub_reply (r : SubId) (x : SubRing) (k : SlotId) : (s.setSub r x).reply k = s.reply k := rfl
@[simp] theorem State.setSub_snapshot (r : SubId) (x : SubRing) (k : PortId) : (s.setSub r x).snapshot k = s.snapshot k := rfl
@[simp] theorem State.setSub_position (r : SubId) (x : SubRing) (k : PortId) (j : Fin 8) : (s.setSub r x).position k j = s.position k j := rfl
@[simp] theorem State.setSub_live (r : SubId) (x : SubRing) : (s.setSub r x).live = s.live := rfl
@[simp] theorem State.setSub_sub_self (r : SubId) (x : SubRing) : (s.setSub r x).sub r = x := by
  simp [State.setSub, State.sub]
theorem State.setSub_sub_ne (r : SubId) (x : SubRing) (k : SubId) (h : k ≠ r) : (s.setSub r x).sub k = s.sub k := by
  simp [State.setSub, State.sub, Ne.symm (Fin.val_ne_of_ne h)]
theorem State.setSub_sub_eq (r : SubId) (x : SubRing) (k : SubId) : (s.setSub r x).sub k = if k = r then x else s.sub k := by
  by_cases h : k = r
  · subst h; simp
  · simp [State.setSub_sub_ne _ _ _ _ h, h]

/-! ### State.setCpl -/

@[simp] theorem State.setCpl_engine (c : CplId) (x : CplRing) : (s.setCpl c x).engine = s.engine := rfl
@[simp] theorem State.setCpl_cause (c : CplId) (x : CplRing) : (s.setCpl c x).cause = s.cause := rfl
@[simp] theorem State.setCpl_notes (c : CplId) (x : CplRing) : (s.setCpl c x).notes = s.notes := rfl
@[simp] theorem State.setCpl_setupAddress (c : CplId) (x : CplRing) : (s.setCpl c x).setupAddress = s.setupAddress := rfl
@[simp] theorem State.setCpl_timeBase (c : CplId) (x : CplRing) : (s.setCpl c x).timeBase = s.timeBase := rfl
@[simp] theorem State.setCpl_setupRead (c : CplId) (x : CplRing) : (s.setCpl c x).setupRead = s.setupRead := rfl
@[simp] theorem State.setCpl_admin (c : CplId) (x : CplRing) : (s.setCpl c x).admin = s.admin := rfl
@[simp] theorem State.setCpl_ports (c : CplId) (x : CplRing) : (s.setCpl c x).ports = s.ports := rfl
@[simp] theorem State.setCpl_roundRobin (c : CplId) (x : CplRing) : (s.setCpl c x).roundRobin = s.roundRobin := rfl
@[simp] theorem State.setCpl_subs (c : CplId) (x : CplRing) : (s.setCpl c x).subs = s.subs := rfl
@[simp] theorem State.setCpl_rcvs (c : CplId) (x : CplRing) : (s.setCpl c x).rcvs = s.rcvs := rfl
@[simp] theorem State.setCpl_vectors (c : CplId) (x : CplRing) : (s.setCpl c x).vectors = s.vectors := rfl
@[simp] theorem State.setCpl_messages (c : CplId) (x : CplRing) : (s.setCpl c x).messages = s.messages := rfl
@[simp] theorem State.setCpl_health (c : CplId) (x : CplRing) : (s.setCpl c x).health = s.health := rfl
@[simp] theorem State.setCpl_entries (c : CplId) (x : CplRing) : (s.setCpl c x).entries = s.entries := rfl
@[simp] theorem State.setCpl_replies (c : CplId) (x : CplRing) : (s.setCpl c x).replies = s.replies := rfl
@[simp] theorem State.setCpl_snapshots (c : CplId) (x : CplRing) : (s.setCpl c x).snapshots = s.snapshots := rfl
@[simp] theorem State.setCpl_pending (c : CplId) (x : CplRing) : (s.setCpl c x).pending = s.pending := rfl
@[simp] theorem State.setCpl_port (c : CplId) (x : CplRing) (k : PortId) : (s.setCpl c x).port k = s.port k := rfl
@[simp] theorem State.setCpl_sub (c : CplId) (x : CplRing) (k : SubId) : (s.setCpl c x).sub k = s.sub k := rfl
@[simp] theorem State.setCpl_rcv (c : CplId) (x : CplRing) (k : RcvId) : (s.setCpl c x).rcv k = s.rcv k := rfl
@[simp] theorem State.setCpl_vector (c : CplId) (x : CplRing) (k : VecId) : (s.setCpl c x).vector k = s.vector k := rfl
@[simp] theorem State.setCpl_entry (c : CplId) (x : CplRing) (k : MatchId) : (s.setCpl c x).entry k = s.entry k := rfl
@[simp] theorem State.setCpl_reply (c : CplId) (x : CplRing) (k : SlotId) : (s.setCpl c x).reply k = s.reply k := rfl
@[simp] theorem State.setCpl_snapshot (c : CplId) (x : CplRing) (k : PortId) : (s.setCpl c x).snapshot k = s.snapshot k := rfl
@[simp] theorem State.setCpl_position (c : CplId) (x : CplRing) (k : PortId) (j : Fin 8) : (s.setCpl c x).position k j = s.position k j := rfl
@[simp] theorem State.setCpl_live (c : CplId) (x : CplRing) : (s.setCpl c x).live = s.live := rfl
@[simp] theorem State.setCpl_cpl_self (c : CplId) (x : CplRing) : (s.setCpl c x).cpl c = x := by
  simp [State.setCpl, State.cpl]
theorem State.setCpl_cpl_ne (c : CplId) (x : CplRing) (k : CplId) (h : k ≠ c) : (s.setCpl c x).cpl k = s.cpl k := by
  simp [State.setCpl, State.cpl, Ne.symm (Fin.val_ne_of_ne h)]
theorem State.setCpl_cpl_eq (c : CplId) (x : CplRing) (k : CplId) : (s.setCpl c x).cpl k = if k = c then x else s.cpl k := by
  by_cases h : k = c
  · subst h; simp
  · simp [State.setCpl_cpl_ne _ _ _ _ h, h]

/-! ### State.setRcv -/

@[simp] theorem State.setRcv_engine (r : RcvId) (x : RcvRing) : (s.setRcv r x).engine = s.engine := rfl
@[simp] theorem State.setRcv_cause (r : RcvId) (x : RcvRing) : (s.setRcv r x).cause = s.cause := rfl
@[simp] theorem State.setRcv_notes (r : RcvId) (x : RcvRing) : (s.setRcv r x).notes = s.notes := rfl
@[simp] theorem State.setRcv_setupAddress (r : RcvId) (x : RcvRing) : (s.setRcv r x).setupAddress = s.setupAddress := rfl
@[simp] theorem State.setRcv_timeBase (r : RcvId) (x : RcvRing) : (s.setRcv r x).timeBase = s.timeBase := rfl
@[simp] theorem State.setRcv_setupRead (r : RcvId) (x : RcvRing) : (s.setRcv r x).setupRead = s.setupRead := rfl
@[simp] theorem State.setRcv_admin (r : RcvId) (x : RcvRing) : (s.setRcv r x).admin = s.admin := rfl
@[simp] theorem State.setRcv_ports (r : RcvId) (x : RcvRing) : (s.setRcv r x).ports = s.ports := rfl
@[simp] theorem State.setRcv_roundRobin (r : RcvId) (x : RcvRing) : (s.setRcv r x).roundRobin = s.roundRobin := rfl
@[simp] theorem State.setRcv_subs (r : RcvId) (x : RcvRing) : (s.setRcv r x).subs = s.subs := rfl
@[simp] theorem State.setRcv_cpls (r : RcvId) (x : RcvRing) : (s.setRcv r x).cpls = s.cpls := rfl
@[simp] theorem State.setRcv_vectors (r : RcvId) (x : RcvRing) : (s.setRcv r x).vectors = s.vectors := rfl
@[simp] theorem State.setRcv_messages (r : RcvId) (x : RcvRing) : (s.setRcv r x).messages = s.messages := rfl
@[simp] theorem State.setRcv_health (r : RcvId) (x : RcvRing) : (s.setRcv r x).health = s.health := rfl
@[simp] theorem State.setRcv_entries (r : RcvId) (x : RcvRing) : (s.setRcv r x).entries = s.entries := rfl
@[simp] theorem State.setRcv_replies (r : RcvId) (x : RcvRing) : (s.setRcv r x).replies = s.replies := rfl
@[simp] theorem State.setRcv_snapshots (r : RcvId) (x : RcvRing) : (s.setRcv r x).snapshots = s.snapshots := rfl
@[simp] theorem State.setRcv_pending (r : RcvId) (x : RcvRing) : (s.setRcv r x).pending = s.pending := rfl
@[simp] theorem State.setRcv_port (r : RcvId) (x : RcvRing) (k : PortId) : (s.setRcv r x).port k = s.port k := rfl
@[simp] theorem State.setRcv_sub (r : RcvId) (x : RcvRing) (k : SubId) : (s.setRcv r x).sub k = s.sub k := rfl
@[simp] theorem State.setRcv_cpl (r : RcvId) (x : RcvRing) (k : CplId) : (s.setRcv r x).cpl k = s.cpl k := rfl
@[simp] theorem State.setRcv_vector (r : RcvId) (x : RcvRing) (k : VecId) : (s.setRcv r x).vector k = s.vector k := rfl
@[simp] theorem State.setRcv_entry (r : RcvId) (x : RcvRing) (k : MatchId) : (s.setRcv r x).entry k = s.entry k := rfl
@[simp] theorem State.setRcv_reply (r : RcvId) (x : RcvRing) (k : SlotId) : (s.setRcv r x).reply k = s.reply k := rfl
@[simp] theorem State.setRcv_snapshot (r : RcvId) (x : RcvRing) (k : PortId) : (s.setRcv r x).snapshot k = s.snapshot k := rfl
@[simp] theorem State.setRcv_position (r : RcvId) (x : RcvRing) (k : PortId) (j : Fin 8) : (s.setRcv r x).position k j = s.position k j := rfl
@[simp] theorem State.setRcv_live (r : RcvId) (x : RcvRing) : (s.setRcv r x).live = s.live := rfl
@[simp] theorem State.setRcv_rcv_self (r : RcvId) (x : RcvRing) : (s.setRcv r x).rcv r = x := by
  simp [State.setRcv, State.rcv]
theorem State.setRcv_rcv_ne (r : RcvId) (x : RcvRing) (k : RcvId) (h : k ≠ r) : (s.setRcv r x).rcv k = s.rcv k := by
  simp [State.setRcv, State.rcv, Ne.symm (Fin.val_ne_of_ne h)]
theorem State.setRcv_rcv_eq (r : RcvId) (x : RcvRing) (k : RcvId) : (s.setRcv r x).rcv k = if k = r then x else s.rcv k := by
  by_cases h : k = r
  · subst h; simp
  · simp [State.setRcv_rcv_ne _ _ _ _ h, h]

/-! ### State.setVector -/

@[simp] theorem State.setVector_engine (v : VecId) (x : IrqVector) : (s.setVector v x).engine = s.engine := rfl
@[simp] theorem State.setVector_cause (v : VecId) (x : IrqVector) : (s.setVector v x).cause = s.cause := rfl
@[simp] theorem State.setVector_notes (v : VecId) (x : IrqVector) : (s.setVector v x).notes = s.notes := rfl
@[simp] theorem State.setVector_setupAddress (v : VecId) (x : IrqVector) : (s.setVector v x).setupAddress = s.setupAddress := rfl
@[simp] theorem State.setVector_timeBase (v : VecId) (x : IrqVector) : (s.setVector v x).timeBase = s.timeBase := rfl
@[simp] theorem State.setVector_setupRead (v : VecId) (x : IrqVector) : (s.setVector v x).setupRead = s.setupRead := rfl
@[simp] theorem State.setVector_admin (v : VecId) (x : IrqVector) : (s.setVector v x).admin = s.admin := rfl
@[simp] theorem State.setVector_ports (v : VecId) (x : IrqVector) : (s.setVector v x).ports = s.ports := rfl
@[simp] theorem State.setVector_roundRobin (v : VecId) (x : IrqVector) : (s.setVector v x).roundRobin = s.roundRobin := rfl
@[simp] theorem State.setVector_subs (v : VecId) (x : IrqVector) : (s.setVector v x).subs = s.subs := rfl
@[simp] theorem State.setVector_cpls (v : VecId) (x : IrqVector) : (s.setVector v x).cpls = s.cpls := rfl
@[simp] theorem State.setVector_rcvs (v : VecId) (x : IrqVector) : (s.setVector v x).rcvs = s.rcvs := rfl
@[simp] theorem State.setVector_messages (v : VecId) (x : IrqVector) : (s.setVector v x).messages = s.messages := rfl
@[simp] theorem State.setVector_health (v : VecId) (x : IrqVector) : (s.setVector v x).health = s.health := rfl
@[simp] theorem State.setVector_entries (v : VecId) (x : IrqVector) : (s.setVector v x).entries = s.entries := rfl
@[simp] theorem State.setVector_replies (v : VecId) (x : IrqVector) : (s.setVector v x).replies = s.replies := rfl
@[simp] theorem State.setVector_snapshots (v : VecId) (x : IrqVector) : (s.setVector v x).snapshots = s.snapshots := rfl
@[simp] theorem State.setVector_pending (v : VecId) (x : IrqVector) : (s.setVector v x).pending = s.pending := rfl
@[simp] theorem State.setVector_port (v : VecId) (x : IrqVector) (k : PortId) : (s.setVector v x).port k = s.port k := rfl
@[simp] theorem State.setVector_sub (v : VecId) (x : IrqVector) (k : SubId) : (s.setVector v x).sub k = s.sub k := rfl
@[simp] theorem State.setVector_cpl (v : VecId) (x : IrqVector) (k : CplId) : (s.setVector v x).cpl k = s.cpl k := rfl
@[simp] theorem State.setVector_rcv (v : VecId) (x : IrqVector) (k : RcvId) : (s.setVector v x).rcv k = s.rcv k := rfl
@[simp] theorem State.setVector_entry (v : VecId) (x : IrqVector) (k : MatchId) : (s.setVector v x).entry k = s.entry k := rfl
@[simp] theorem State.setVector_reply (v : VecId) (x : IrqVector) (k : SlotId) : (s.setVector v x).reply k = s.reply k := rfl
@[simp] theorem State.setVector_snapshot (v : VecId) (x : IrqVector) (k : PortId) : (s.setVector v x).snapshot k = s.snapshot k := rfl
@[simp] theorem State.setVector_position (v : VecId) (x : IrqVector) (k : PortId) (j : Fin 8) : (s.setVector v x).position k j = s.position k j := rfl
@[simp] theorem State.setVector_live (v : VecId) (x : IrqVector) : (s.setVector v x).live = s.live := rfl
@[simp] theorem State.setVector_vector_self (v : VecId) (x : IrqVector) : (s.setVector v x).vector v = x := by
  simp [State.setVector, State.vector]
theorem State.setVector_vector_ne (v : VecId) (x : IrqVector) (k : VecId) (h : k ≠ v) : (s.setVector v x).vector k = s.vector k := by
  simp [State.setVector, State.vector, Ne.symm (Fin.val_ne_of_ne h)]
theorem State.setVector_vector_eq (v : VecId) (x : IrqVector) (k : VecId) : (s.setVector v x).vector k = if k = v then x else s.vector k := by
  by_cases h : k = v
  · subst h; simp
  · simp [State.setVector_vector_ne _ _ _ _ h, h]

/-! ### State.setEntry -/

@[simp] theorem State.setEntry_engine (i : MatchId) (x : MatchEntry) : (s.setEntry i x).engine = s.engine := rfl
@[simp] theorem State.setEntry_cause (i : MatchId) (x : MatchEntry) : (s.setEntry i x).cause = s.cause := rfl
@[simp] theorem State.setEntry_notes (i : MatchId) (x : MatchEntry) : (s.setEntry i x).notes = s.notes := rfl
@[simp] theorem State.setEntry_setupAddress (i : MatchId) (x : MatchEntry) : (s.setEntry i x).setupAddress = s.setupAddress := rfl
@[simp] theorem State.setEntry_timeBase (i : MatchId) (x : MatchEntry) : (s.setEntry i x).timeBase = s.timeBase := rfl
@[simp] theorem State.setEntry_setupRead (i : MatchId) (x : MatchEntry) : (s.setEntry i x).setupRead = s.setupRead := rfl
@[simp] theorem State.setEntry_admin (i : MatchId) (x : MatchEntry) : (s.setEntry i x).admin = s.admin := rfl
@[simp] theorem State.setEntry_ports (i : MatchId) (x : MatchEntry) : (s.setEntry i x).ports = s.ports := rfl
@[simp] theorem State.setEntry_roundRobin (i : MatchId) (x : MatchEntry) : (s.setEntry i x).roundRobin = s.roundRobin := rfl
@[simp] theorem State.setEntry_subs (i : MatchId) (x : MatchEntry) : (s.setEntry i x).subs = s.subs := rfl
@[simp] theorem State.setEntry_cpls (i : MatchId) (x : MatchEntry) : (s.setEntry i x).cpls = s.cpls := rfl
@[simp] theorem State.setEntry_rcvs (i : MatchId) (x : MatchEntry) : (s.setEntry i x).rcvs = s.rcvs := rfl
@[simp] theorem State.setEntry_vectors (i : MatchId) (x : MatchEntry) : (s.setEntry i x).vectors = s.vectors := rfl
@[simp] theorem State.setEntry_messages (i : MatchId) (x : MatchEntry) : (s.setEntry i x).messages = s.messages := rfl
@[simp] theorem State.setEntry_health (i : MatchId) (x : MatchEntry) : (s.setEntry i x).health = s.health := rfl
@[simp] theorem State.setEntry_replies (i : MatchId) (x : MatchEntry) : (s.setEntry i x).replies = s.replies := rfl
@[simp] theorem State.setEntry_snapshots (i : MatchId) (x : MatchEntry) : (s.setEntry i x).snapshots = s.snapshots := rfl
@[simp] theorem State.setEntry_pending (i : MatchId) (x : MatchEntry) : (s.setEntry i x).pending = s.pending := rfl
@[simp] theorem State.setEntry_port (i : MatchId) (x : MatchEntry) (k : PortId) : (s.setEntry i x).port k = s.port k := rfl
@[simp] theorem State.setEntry_sub (i : MatchId) (x : MatchEntry) (k : SubId) : (s.setEntry i x).sub k = s.sub k := rfl
@[simp] theorem State.setEntry_cpl (i : MatchId) (x : MatchEntry) (k : CplId) : (s.setEntry i x).cpl k = s.cpl k := rfl
@[simp] theorem State.setEntry_rcv (i : MatchId) (x : MatchEntry) (k : RcvId) : (s.setEntry i x).rcv k = s.rcv k := rfl
@[simp] theorem State.setEntry_vector (i : MatchId) (x : MatchEntry) (k : VecId) : (s.setEntry i x).vector k = s.vector k := rfl
@[simp] theorem State.setEntry_reply (i : MatchId) (x : MatchEntry) (k : SlotId) : (s.setEntry i x).reply k = s.reply k := rfl
@[simp] theorem State.setEntry_snapshot (i : MatchId) (x : MatchEntry) (k : PortId) : (s.setEntry i x).snapshot k = s.snapshot k := rfl
@[simp] theorem State.setEntry_position (i : MatchId) (x : MatchEntry) (k : PortId) (j : Fin 8) : (s.setEntry i x).position k j = s.position k j := rfl
@[simp] theorem State.setEntry_live (i : MatchId) (x : MatchEntry) : (s.setEntry i x).live = s.live := rfl
@[simp] theorem State.setEntry_entry_self (i : MatchId) (x : MatchEntry) : (s.setEntry i x).entry i = x := by
  simp [State.setEntry, State.entry]
theorem State.setEntry_entry_ne (i : MatchId) (x : MatchEntry) (k : MatchId) (h : k ≠ i) : (s.setEntry i x).entry k = s.entry k := by
  simp [State.setEntry, State.entry, Ne.symm (Fin.val_ne_of_ne h)]
theorem State.setEntry_entry_eq (i : MatchId) (x : MatchEntry) (k : MatchId) : (s.setEntry i x).entry k = if k = i then x else s.entry k := by
  by_cases h : k = i
  · subst h; simp
  · simp [State.setEntry_entry_ne _ _ _ _ h, h]

/-! ### State.setReply -/

@[simp] theorem State.setReply_engine (i : SlotId) (x : ReplySlot) : (s.setReply i x).engine = s.engine := rfl
@[simp] theorem State.setReply_cause (i : SlotId) (x : ReplySlot) : (s.setReply i x).cause = s.cause := rfl
@[simp] theorem State.setReply_notes (i : SlotId) (x : ReplySlot) : (s.setReply i x).notes = s.notes := rfl
@[simp] theorem State.setReply_setupAddress (i : SlotId) (x : ReplySlot) : (s.setReply i x).setupAddress = s.setupAddress := rfl
@[simp] theorem State.setReply_timeBase (i : SlotId) (x : ReplySlot) : (s.setReply i x).timeBase = s.timeBase := rfl
@[simp] theorem State.setReply_setupRead (i : SlotId) (x : ReplySlot) : (s.setReply i x).setupRead = s.setupRead := rfl
@[simp] theorem State.setReply_admin (i : SlotId) (x : ReplySlot) : (s.setReply i x).admin = s.admin := rfl
@[simp] theorem State.setReply_ports (i : SlotId) (x : ReplySlot) : (s.setReply i x).ports = s.ports := rfl
@[simp] theorem State.setReply_roundRobin (i : SlotId) (x : ReplySlot) : (s.setReply i x).roundRobin = s.roundRobin := rfl
@[simp] theorem State.setReply_subs (i : SlotId) (x : ReplySlot) : (s.setReply i x).subs = s.subs := rfl
@[simp] theorem State.setReply_cpls (i : SlotId) (x : ReplySlot) : (s.setReply i x).cpls = s.cpls := rfl
@[simp] theorem State.setReply_rcvs (i : SlotId) (x : ReplySlot) : (s.setReply i x).rcvs = s.rcvs := rfl
@[simp] theorem State.setReply_vectors (i : SlotId) (x : ReplySlot) : (s.setReply i x).vectors = s.vectors := rfl
@[simp] theorem State.setReply_messages (i : SlotId) (x : ReplySlot) : (s.setReply i x).messages = s.messages := rfl
@[simp] theorem State.setReply_health (i : SlotId) (x : ReplySlot) : (s.setReply i x).health = s.health := rfl
@[simp] theorem State.setReply_entries (i : SlotId) (x : ReplySlot) : (s.setReply i x).entries = s.entries := rfl
@[simp] theorem State.setReply_snapshots (i : SlotId) (x : ReplySlot) : (s.setReply i x).snapshots = s.snapshots := rfl
@[simp] theorem State.setReply_pending (i : SlotId) (x : ReplySlot) : (s.setReply i x).pending = s.pending := rfl
@[simp] theorem State.setReply_port (i : SlotId) (x : ReplySlot) (k : PortId) : (s.setReply i x).port k = s.port k := rfl
@[simp] theorem State.setReply_sub (i : SlotId) (x : ReplySlot) (k : SubId) : (s.setReply i x).sub k = s.sub k := rfl
@[simp] theorem State.setReply_cpl (i : SlotId) (x : ReplySlot) (k : CplId) : (s.setReply i x).cpl k = s.cpl k := rfl
@[simp] theorem State.setReply_rcv (i : SlotId) (x : ReplySlot) (k : RcvId) : (s.setReply i x).rcv k = s.rcv k := rfl
@[simp] theorem State.setReply_vector (i : SlotId) (x : ReplySlot) (k : VecId) : (s.setReply i x).vector k = s.vector k := rfl
@[simp] theorem State.setReply_entry (i : SlotId) (x : ReplySlot) (k : MatchId) : (s.setReply i x).entry k = s.entry k := rfl
@[simp] theorem State.setReply_snapshot (i : SlotId) (x : ReplySlot) (k : PortId) : (s.setReply i x).snapshot k = s.snapshot k := rfl
@[simp] theorem State.setReply_position (i : SlotId) (x : ReplySlot) (k : PortId) (j : Fin 8) : (s.setReply i x).position k j = s.position k j := rfl
@[simp] theorem State.setReply_live (i : SlotId) (x : ReplySlot) : (s.setReply i x).live = s.live := rfl
@[simp] theorem State.setReply_reply_self (i : SlotId) (x : ReplySlot) : (s.setReply i x).reply i = x := by
  simp [State.setReply, State.reply]
theorem State.setReply_reply_ne (i : SlotId) (x : ReplySlot) (k : SlotId) (h : k ≠ i) : (s.setReply i x).reply k = s.reply k := by
  simp [State.setReply, State.reply, Ne.symm (Fin.val_ne_of_ne h)]
theorem State.setReply_reply_eq (i : SlotId) (x : ReplySlot) (k : SlotId) : (s.setReply i x).reply k = if k = i then x else s.reply k := by
  by_cases h : k = i
  · subst h; simp
  · simp [State.setReply_reply_ne _ _ _ _ h, h]

/-! ### State.setSnapshot -/

@[simp] theorem State.setSnapshot_engine (p : PortId) (x : Option Snapshot) : (s.setSnapshot p x).engine = s.engine := rfl
@[simp] theorem State.setSnapshot_cause (p : PortId) (x : Option Snapshot) : (s.setSnapshot p x).cause = s.cause := rfl
@[simp] theorem State.setSnapshot_notes (p : PortId) (x : Option Snapshot) : (s.setSnapshot p x).notes = s.notes := rfl
@[simp] theorem State.setSnapshot_setupAddress (p : PortId) (x : Option Snapshot) : (s.setSnapshot p x).setupAddress = s.setupAddress := rfl
@[simp] theorem State.setSnapshot_timeBase (p : PortId) (x : Option Snapshot) : (s.setSnapshot p x).timeBase = s.timeBase := rfl
@[simp] theorem State.setSnapshot_setupRead (p : PortId) (x : Option Snapshot) : (s.setSnapshot p x).setupRead = s.setupRead := rfl
@[simp] theorem State.setSnapshot_admin (p : PortId) (x : Option Snapshot) : (s.setSnapshot p x).admin = s.admin := rfl
@[simp] theorem State.setSnapshot_ports (p : PortId) (x : Option Snapshot) : (s.setSnapshot p x).ports = s.ports := rfl
@[simp] theorem State.setSnapshot_roundRobin (p : PortId) (x : Option Snapshot) : (s.setSnapshot p x).roundRobin = s.roundRobin := rfl
@[simp] theorem State.setSnapshot_subs (p : PortId) (x : Option Snapshot) : (s.setSnapshot p x).subs = s.subs := rfl
@[simp] theorem State.setSnapshot_cpls (p : PortId) (x : Option Snapshot) : (s.setSnapshot p x).cpls = s.cpls := rfl
@[simp] theorem State.setSnapshot_rcvs (p : PortId) (x : Option Snapshot) : (s.setSnapshot p x).rcvs = s.rcvs := rfl
@[simp] theorem State.setSnapshot_vectors (p : PortId) (x : Option Snapshot) : (s.setSnapshot p x).vectors = s.vectors := rfl
@[simp] theorem State.setSnapshot_messages (p : PortId) (x : Option Snapshot) : (s.setSnapshot p x).messages = s.messages := rfl
@[simp] theorem State.setSnapshot_health (p : PortId) (x : Option Snapshot) : (s.setSnapshot p x).health = s.health := rfl
@[simp] theorem State.setSnapshot_entries (p : PortId) (x : Option Snapshot) : (s.setSnapshot p x).entries = s.entries := rfl
@[simp] theorem State.setSnapshot_replies (p : PortId) (x : Option Snapshot) : (s.setSnapshot p x).replies = s.replies := rfl
@[simp] theorem State.setSnapshot_pending (p : PortId) (x : Option Snapshot) : (s.setSnapshot p x).pending = s.pending := rfl
@[simp] theorem State.setSnapshot_port (p : PortId) (x : Option Snapshot) (k : PortId) : (s.setSnapshot p x).port k = s.port k := rfl
@[simp] theorem State.setSnapshot_sub (p : PortId) (x : Option Snapshot) (k : SubId) : (s.setSnapshot p x).sub k = s.sub k := rfl
@[simp] theorem State.setSnapshot_cpl (p : PortId) (x : Option Snapshot) (k : CplId) : (s.setSnapshot p x).cpl k = s.cpl k := rfl
@[simp] theorem State.setSnapshot_rcv (p : PortId) (x : Option Snapshot) (k : RcvId) : (s.setSnapshot p x).rcv k = s.rcv k := rfl
@[simp] theorem State.setSnapshot_vector (p : PortId) (x : Option Snapshot) (k : VecId) : (s.setSnapshot p x).vector k = s.vector k := rfl
@[simp] theorem State.setSnapshot_entry (p : PortId) (x : Option Snapshot) (k : MatchId) : (s.setSnapshot p x).entry k = s.entry k := rfl
@[simp] theorem State.setSnapshot_reply (p : PortId) (x : Option Snapshot) (k : SlotId) : (s.setSnapshot p x).reply k = s.reply k := rfl
@[simp] theorem State.setSnapshot_position (p : PortId) (x : Option Snapshot) (k : PortId) (j : Fin 8) : (s.setSnapshot p x).position k j = s.position k j := rfl
@[simp] theorem State.setSnapshot_live (p : PortId) (x : Option Snapshot) : (s.setSnapshot p x).live = s.live := rfl
@[simp] theorem State.setSnapshot_snapshot_self (p : PortId) (x : Option Snapshot) : (s.setSnapshot p x).snapshot p = x := by
  simp [State.setSnapshot, State.snapshot]
theorem State.setSnapshot_snapshot_ne (p : PortId) (x : Option Snapshot) (k : PortId) (h : k ≠ p) : (s.setSnapshot p x).snapshot k = s.snapshot k := by
  simp [State.setSnapshot, State.snapshot, Ne.symm (Fin.val_ne_of_ne h)]
theorem State.setSnapshot_snapshot_eq (p : PortId) (x : Option Snapshot) (k : PortId) : (s.setSnapshot p x).snapshot k = if k = p then x else s.snapshot k := by
  by_cases h : k = p
  · subst h; simp
  · simp [State.setSnapshot_snapshot_ne _ _ _ _ h, h]

/-! ### State.setPosition -/

@[simp] theorem State.setPosition_engine (p : PortId) (q : Fin 8) (n : Nat) : (s.setPosition p q n).engine = s.engine := rfl
@[simp] theorem State.setPosition_cause (p : PortId) (q : Fin 8) (n : Nat) : (s.setPosition p q n).cause = s.cause := rfl
@[simp] theorem State.setPosition_notes (p : PortId) (q : Fin 8) (n : Nat) : (s.setPosition p q n).notes = s.notes := rfl
@[simp] theorem State.setPosition_setupAddress (p : PortId) (q : Fin 8) (n : Nat) : (s.setPosition p q n).setupAddress = s.setupAddress := rfl
@[simp] theorem State.setPosition_timeBase (p : PortId) (q : Fin 8) (n : Nat) : (s.setPosition p q n).timeBase = s.timeBase := rfl
@[simp] theorem State.setPosition_setupRead (p : PortId) (q : Fin 8) (n : Nat) : (s.setPosition p q n).setupRead = s.setupRead := rfl
@[simp] theorem State.setPosition_admin (p : PortId) (q : Fin 8) (n : Nat) : (s.setPosition p q n).admin = s.admin := rfl
@[simp] theorem State.setPosition_ports (p : PortId) (q : Fin 8) (n : Nat) : (s.setPosition p q n).ports = s.ports := rfl
@[simp] theorem State.setPosition_subs (p : PortId) (q : Fin 8) (n : Nat) : (s.setPosition p q n).subs = s.subs := rfl
@[simp] theorem State.setPosition_cpls (p : PortId) (q : Fin 8) (n : Nat) : (s.setPosition p q n).cpls = s.cpls := rfl
@[simp] theorem State.setPosition_rcvs (p : PortId) (q : Fin 8) (n : Nat) : (s.setPosition p q n).rcvs = s.rcvs := rfl
@[simp] theorem State.setPosition_vectors (p : PortId) (q : Fin 8) (n : Nat) : (s.setPosition p q n).vectors = s.vectors := rfl
@[simp] theorem State.setPosition_messages (p : PortId) (q : Fin 8) (n : Nat) : (s.setPosition p q n).messages = s.messages := rfl
@[simp] theorem State.setPosition_health (p : PortId) (q : Fin 8) (n : Nat) : (s.setPosition p q n).health = s.health := rfl
@[simp] theorem State.setPosition_entries (p : PortId) (q : Fin 8) (n : Nat) : (s.setPosition p q n).entries = s.entries := rfl
@[simp] theorem State.setPosition_replies (p : PortId) (q : Fin 8) (n : Nat) : (s.setPosition p q n).replies = s.replies := rfl
@[simp] theorem State.setPosition_snapshots (p : PortId) (q : Fin 8) (n : Nat) : (s.setPosition p q n).snapshots = s.snapshots := rfl
@[simp] theorem State.setPosition_pending (p : PortId) (q : Fin 8) (n : Nat) : (s.setPosition p q n).pending = s.pending := rfl
@[simp] theorem State.setPosition_port (p : PortId) (q : Fin 8) (n : Nat) (k : PortId) : (s.setPosition p q n).port k = s.port k := rfl
@[simp] theorem State.setPosition_sub (p : PortId) (q : Fin 8) (n : Nat) (k : SubId) : (s.setPosition p q n).sub k = s.sub k := rfl
@[simp] theorem State.setPosition_cpl (p : PortId) (q : Fin 8) (n : Nat) (k : CplId) : (s.setPosition p q n).cpl k = s.cpl k := rfl
@[simp] theorem State.setPosition_rcv (p : PortId) (q : Fin 8) (n : Nat) (k : RcvId) : (s.setPosition p q n).rcv k = s.rcv k := rfl
@[simp] theorem State.setPosition_vector (p : PortId) (q : Fin 8) (n : Nat) (k : VecId) : (s.setPosition p q n).vector k = s.vector k := rfl
@[simp] theorem State.setPosition_entry (p : PortId) (q : Fin 8) (n : Nat) (k : MatchId) : (s.setPosition p q n).entry k = s.entry k := rfl
@[simp] theorem State.setPosition_reply (p : PortId) (q : Fin 8) (n : Nat) (k : SlotId) : (s.setPosition p q n).reply k = s.reply k := rfl
@[simp] theorem State.setPosition_snapshot (p : PortId) (q : Fin 8) (n : Nat) (k : PortId) : (s.setPosition p q n).snapshot k = s.snapshot k := rfl
@[simp] theorem State.setPosition_live (p : PortId) (q : Fin 8) (n : Nat) : (s.setPosition p q n).live = s.live := rfl

/-! ### State.count -/

@[simp] theorem State.count_engine (p : PortId) (c : Counter) : (s.count p c).engine = s.engine := rfl
@[simp] theorem State.count_cause (p : PortId) (c : Counter) : (s.count p c).cause = s.cause := rfl
@[simp] theorem State.count_notes (p : PortId) (c : Counter) : (s.count p c).notes = s.notes := rfl
@[simp] theorem State.count_setupAddress (p : PortId) (c : Counter) : (s.count p c).setupAddress = s.setupAddress := rfl
@[simp] theorem State.count_timeBase (p : PortId) (c : Counter) : (s.count p c).timeBase = s.timeBase := rfl
@[simp] theorem State.count_setupRead (p : PortId) (c : Counter) : (s.count p c).setupRead = s.setupRead := rfl
@[simp] theorem State.count_admin (p : PortId) (c : Counter) : (s.count p c).admin = s.admin := rfl
@[simp] theorem State.count_roundRobin (p : PortId) (c : Counter) : (s.count p c).roundRobin = s.roundRobin := rfl
@[simp] theorem State.count_subs (p : PortId) (c : Counter) : (s.count p c).subs = s.subs := rfl
@[simp] theorem State.count_cpls (p : PortId) (c : Counter) : (s.count p c).cpls = s.cpls := rfl
@[simp] theorem State.count_rcvs (p : PortId) (c : Counter) : (s.count p c).rcvs = s.rcvs := rfl
@[simp] theorem State.count_vectors (p : PortId) (c : Counter) : (s.count p c).vectors = s.vectors := rfl
@[simp] theorem State.count_messages (p : PortId) (c : Counter) : (s.count p c).messages = s.messages := rfl
@[simp] theorem State.count_health (p : PortId) (c : Counter) : (s.count p c).health = s.health := rfl
@[simp] theorem State.count_entries (p : PortId) (c : Counter) : (s.count p c).entries = s.entries := rfl
@[simp] theorem State.count_replies (p : PortId) (c : Counter) : (s.count p c).replies = s.replies := rfl
@[simp] theorem State.count_snapshots (p : PortId) (c : Counter) : (s.count p c).snapshots = s.snapshots := rfl
@[simp] theorem State.count_pending (p : PortId) (c : Counter) : (s.count p c).pending = s.pending := rfl
@[simp] theorem State.count_live (p : PortId) (c : Counter) : (s.count p c).live = s.live := rfl
@[simp] theorem State.count_port_self (p : PortId) (c : Counter) :
    (s.count p c).port p = { s.port p with stats := (s.port p).stats.count c } := by simp [State.count]
theorem State.count_port_ne (p : PortId) (c : Counter) (k : PortId) (h : k ≠ p) : (s.count p c).port k = s.port k := by
  simp [State.count, State.setPort_port_ne _ _ _ _ h]

/-! ### State.inRingOrder -/

@[simp] theorem State.inRingOrder_engine (before : State) : (s.inRingOrder before).engine = s.engine := rfl
@[simp] theorem State.inRingOrder_cause (before : State) : (s.inRingOrder before).cause = s.cause := rfl
@[simp] theorem State.inRingOrder_notes (before : State) : (s.inRingOrder before).notes = s.notes := rfl
@[simp] theorem State.inRingOrder_setupAddress (before : State) : (s.inRingOrder before).setupAddress = s.setupAddress := rfl
@[simp] theorem State.inRingOrder_timeBase (before : State) : (s.inRingOrder before).timeBase = s.timeBase := rfl
@[simp] theorem State.inRingOrder_setupRead (before : State) : (s.inRingOrder before).setupRead = s.setupRead := rfl
@[simp] theorem State.inRingOrder_admin (before : State) : (s.inRingOrder before).admin = s.admin := rfl
@[simp] theorem State.inRingOrder_ports (before : State) : (s.inRingOrder before).ports = s.ports := rfl
@[simp] theorem State.inRingOrder_roundRobin (before : State) : (s.inRingOrder before).roundRobin = s.roundRobin := rfl
@[simp] theorem State.inRingOrder_subs (before : State) : (s.inRingOrder before).subs = s.subs := rfl
@[simp] theorem State.inRingOrder_rcvs (before : State) : (s.inRingOrder before).rcvs = s.rcvs := rfl
@[simp] theorem State.inRingOrder_vectors (before : State) : (s.inRingOrder before).vectors = s.vectors := rfl
@[simp] theorem State.inRingOrder_messages (before : State) : (s.inRingOrder before).messages = s.messages := rfl
@[simp] theorem State.inRingOrder_health (before : State) : (s.inRingOrder before).health = s.health := rfl
@[simp] theorem State.inRingOrder_entries (before : State) : (s.inRingOrder before).entries = s.entries := rfl
@[simp] theorem State.inRingOrder_replies (before : State) : (s.inRingOrder before).replies = s.replies := rfl
@[simp] theorem State.inRingOrder_snapshots (before : State) : (s.inRingOrder before).snapshots = s.snapshots := rfl
@[simp] theorem State.inRingOrder_pending (before : State) : (s.inRingOrder before).pending = s.pending := rfl
@[simp] theorem State.inRingOrder_port (before : State) (k : PortId) : (s.inRingOrder before).port k = s.port k := rfl
@[simp] theorem State.inRingOrder_sub (before : State) (k : SubId) : (s.inRingOrder before).sub k = s.sub k := rfl
@[simp] theorem State.inRingOrder_rcv (before : State) (k : RcvId) : (s.inRingOrder before).rcv k = s.rcv k := rfl
@[simp] theorem State.inRingOrder_vector (before : State) (k : VecId) : (s.inRingOrder before).vector k = s.vector k := rfl
@[simp] theorem State.inRingOrder_entry (before : State) (k : MatchId) : (s.inRingOrder before).entry k = s.entry k := rfl
@[simp] theorem State.inRingOrder_reply (before : State) (k : SlotId) : (s.inRingOrder before).reply k = s.reply k := rfl
@[simp] theorem State.inRingOrder_snapshot (before : State) (k : PortId) : (s.inRingOrder before).snapshot k = s.snapshot k := rfl
@[simp] theorem State.inRingOrder_live (before : State) : (s.inRingOrder before).live = s.live := rfl
@[simp] theorem State.inRingOrder_cpl (before : State) (c : CplId) :
    (s.inRingOrder before).cpl c = (s.cpl c).inRingOrder (before.cpl c).queue.length := by
  simp [State.inRingOrder, State.cpl]

/-! ### The updates of a port -/

variable (x : Port)

@[simp] theorem Port.goOff_state : x.goOff.state = .off := rfl
@[simp] theorem Port.goOff_config : x.goOff.config = x.config := rfl
@[simp] theorem Port.goOff_stopPending : x.goOff.stopPending = false := rfl
@[simp] theorem Port.goOff_bckDriver : x.goOff.bckDriver = .released := rfl
@[simp] theorem Port.goOff_bdaDriver : x.goOff.bdaDriver = .released := rfl
@[simp] theorem Port.goOff_busView : x.goOff.busView = .busy := rfl
@[simp] theorem Port.goOff_idleSince : x.goOff.idleSince = none := rfl
@[simp] theorem Port.goOff_idleFull : x.goOff.idleFull = false := rfl
@[simp] theorem Port.goOff_bckLowSince : x.goOff.bckLowSince = none := rfl
@[simp] theorem Port.goOff_bdaLowSince : x.goOff.bdaLowSince = none := rfl
@[simp] theorem Port.goOff_silenceSince : x.goOff.silenceSince = none := rfl
@[simp] theorem Port.goOff_frame : x.goOff.frame = none := rfl
@[simp] theorem Port.goOff_stats : x.goOff.stats = x.stats := rfl
@[simp] theorem Port.goOff_window : x.goOff.window = .none := rfl
@[simp] theorem Port.goOff_nextToken : x.goOff.nextToken = x.nextToken := rfl
@[simp] theorem Port.goOff_recovery : x.goOff.recovery = none := rfl
@[simp] theorem Port.goOff_leaving : x.goOff.leaving = false := rfl

@[simp] theorem Port.toIdle_state (t : Option Time) : (x.toIdle t).state = .idle := rfl
@[simp] theorem Port.toIdle_config (t : Option Time) : (x.toIdle t).config = x.config := rfl
@[simp] theorem Port.toIdle_stopPending (t : Option Time) : (x.toIdle t).stopPending = x.stopPending := rfl
@[simp] theorem Port.toIdle_bckDriver (t : Option Time) : (x.toIdle t).bckDriver = .released := rfl
@[simp] theorem Port.toIdle_bdaDriver (t : Option Time) : (x.toIdle t).bdaDriver = .released := rfl
@[simp] theorem Port.toIdle_busView (t : Option Time) : (x.toIdle t).busView = .busy := rfl
@[simp] theorem Port.toIdle_idleSince (t : Option Time) : (x.toIdle t).idleSince = t := rfl
@[simp] theorem Port.toIdle_idleFull (t : Option Time) : (x.toIdle t).idleFull = false := rfl
@[simp] theorem Port.toIdle_bckLowSince (t : Option Time) : (x.toIdle t).bckLowSince = none := rfl
@[simp] theorem Port.toIdle_bdaLowSince (t : Option Time) : (x.toIdle t).bdaLowSince = none := rfl
@[simp] theorem Port.toIdle_silenceSince (t : Option Time) : (x.toIdle t).silenceSince = none := rfl
@[simp] theorem Port.toIdle_frame (t : Option Time) : (x.toIdle t).frame = none := rfl
@[simp] theorem Port.toIdle_stats (t : Option Time) : (x.toIdle t).stats = x.stats := rfl
@[simp] theorem Port.toIdle_window (t : Option Time) : (x.toIdle t).window = x.window := rfl
@[simp] theorem Port.toIdle_nextToken (t : Option Time) : (x.toIdle t).nextToken = x.nextToken := rfl
@[simp] theorem Port.toIdle_recovery (t : Option Time) : (x.toIdle t).recovery = none := rfl
@[simp] theorem Port.toIdle_leaving (t : Option Time) : (x.toIdle t).leaving = x.leaving := rfl

@[simp] theorem Port.endFrame_state (now : Time) (low : Option Time) : (x.endFrame now low).state = .idle := rfl
@[simp] theorem Port.endFrame_config (now : Time) (low : Option Time) : (x.endFrame now low).config = x.config := rfl
@[simp] theorem Port.endFrame_stopPending (now : Time) (low : Option Time) : (x.endFrame now low).stopPending = x.stopPending := rfl
@[simp] theorem Port.endFrame_bckDriver (now : Time) (low : Option Time) : (x.endFrame now low).bckDriver = .released := rfl
@[simp] theorem Port.endFrame_bdaDriver (now : Time) (low : Option Time) : (x.endFrame now low).bdaDriver = .released := rfl
@[simp] theorem Port.endFrame_busView (now : Time) (low : Option Time) : (x.endFrame now low).busView = .busy := rfl
@[simp] theorem Port.endFrame_idleSince (now : Time) (low : Option Time) : (x.endFrame now low).idleSince = if low.isSome then none else some now := rfl
@[simp] theorem Port.endFrame_idleFull (now : Time) (low : Option Time) : (x.endFrame now low).idleFull = false := rfl
@[simp] theorem Port.endFrame_bckLowSince (now : Time) (low : Option Time) : (x.endFrame now low).bckLowSince = none := rfl
@[simp] theorem Port.endFrame_bdaLowSince (now : Time) (low : Option Time) : (x.endFrame now low).bdaLowSince = low := rfl
@[simp] theorem Port.endFrame_silenceSince (now : Time) (low : Option Time) : (x.endFrame now low).silenceSince = none := rfl
@[simp] theorem Port.endFrame_frame (now : Time) (low : Option Time) : (x.endFrame now low).frame = none := rfl
@[simp] theorem Port.endFrame_stats (now : Time) (low : Option Time) : (x.endFrame now low).stats = x.stats := rfl
@[simp] theorem Port.endFrame_window (now : Time) (low : Option Time) : (x.endFrame now low).window = x.window := rfl
@[simp] theorem Port.endFrame_nextToken (now : Time) (low : Option Time) : (x.endFrame now low).nextToken = x.nextToken := rfl
@[simp] theorem Port.endFrame_recovery (now : Time) (low : Option Time) : (x.endFrame now low).recovery = none := rfl
@[simp] theorem Port.endFrame_leaving (now : Time) (low : Option Time) : (x.endFrame now low).leaving = x.leaving := rfl

@[simp] theorem Port.bckFalls_state (t : Time) : (x.bckFalls t).state = x.state := rfl
@[simp] theorem Port.bckFalls_config (t : Time) : (x.bckFalls t).config = x.config := rfl
@[simp] theorem Port.bckFalls_stopPending (t : Time) : (x.bckFalls t).stopPending = x.stopPending := rfl
@[simp] theorem Port.bckFalls_bckDriver (t : Time) : (x.bckFalls t).bckDriver = x.bckDriver := rfl
@[simp] theorem Port.bckFalls_bdaDriver (t : Time) : (x.bckFalls t).bdaDriver = x.bdaDriver := rfl
@[simp] theorem Port.bckFalls_busView (t : Time) : (x.bckFalls t).busView = x.busView := rfl
@[simp] theorem Port.bckFalls_idleSince (t : Time) : (x.bckFalls t).idleSince = x.idleSince := rfl
@[simp] theorem Port.bckFalls_idleFull (t : Time) : (x.bckFalls t).idleFull = x.idleFull := rfl
@[simp] theorem Port.bckFalls_bckLowSince (t : Time) : (x.bckFalls t).bckLowSince = some t := rfl
@[simp] theorem Port.bckFalls_bdaLowSince (t : Time) : (x.bckFalls t).bdaLowSince = x.bdaLowSince.map fun _ => t := rfl
@[simp] theorem Port.bckFalls_silenceSince (t : Time) : (x.bckFalls t).silenceSince = x.silenceSince := rfl
@[simp] theorem Port.bckFalls_frame (t : Time) : (x.bckFalls t).frame = x.frame := rfl
@[simp] theorem Port.bckFalls_stats (t : Time) : (x.bckFalls t).stats = x.stats := rfl
@[simp] theorem Port.bckFalls_window (t : Time) : (x.bckFalls t).window = x.window := rfl
@[simp] theorem Port.bckFalls_nextToken (t : Time) : (x.bckFalls t).nextToken = x.nextToken := rfl
@[simp] theorem Port.bckFalls_recovery (t : Time) : (x.bckFalls t).recovery = x.recovery := rfl
@[simp] theorem Port.bckFalls_leaving (t : Time) : (x.bckFalls t).leaving = x.leaving := rfl

@[simp] theorem Port.bckLowFrom_state (t : Time) : (x.bckLowFrom t).state = x.state := rfl
@[simp] theorem Port.bckLowFrom_config (t : Time) : (x.bckLowFrom t).config = x.config := rfl
@[simp] theorem Port.bckLowFrom_stopPending (t : Time) : (x.bckLowFrom t).stopPending = x.stopPending := rfl
@[simp] theorem Port.bckLowFrom_bckDriver (t : Time) : (x.bckLowFrom t).bckDriver = x.bckDriver := rfl
@[simp] theorem Port.bckLowFrom_bdaDriver (t : Time) : (x.bckLowFrom t).bdaDriver = x.bdaDriver := rfl
@[simp] theorem Port.bckLowFrom_busView (t : Time) : (x.bckLowFrom t).busView = x.busView := rfl
@[simp] theorem Port.bckLowFrom_idleSince (t : Time) : (x.bckLowFrom t).idleSince = x.idleSince := rfl
@[simp] theorem Port.bckLowFrom_idleFull (t : Time) : (x.bckLowFrom t).idleFull = x.idleFull := rfl
@[simp] theorem Port.bckLowFrom_bckLowSince (t : Time) : (x.bckLowFrom t).bckLowSince = some t := rfl
@[simp] theorem Port.bckLowFrom_bdaLowSince (t : Time) : (x.bckLowFrom t).bdaLowSince = x.bdaLowSince.map fun u => reach u t := rfl
@[simp] theorem Port.bckLowFrom_silenceSince (t : Time) : (x.bckLowFrom t).silenceSince = x.silenceSince := rfl
@[simp] theorem Port.bckLowFrom_frame (t : Time) : (x.bckLowFrom t).frame = x.frame := rfl
@[simp] theorem Port.bckLowFrom_stats (t : Time) : (x.bckLowFrom t).stats = x.stats := rfl
@[simp] theorem Port.bckLowFrom_window (t : Time) : (x.bckLowFrom t).window = x.window := rfl
@[simp] theorem Port.bckLowFrom_nextToken (t : Time) : (x.bckLowFrom t).nextToken = x.nextToken := rfl
@[simp] theorem Port.bckLowFrom_recovery (t : Time) : (x.bckLowFrom t).recovery = x.recovery := rfl
@[simp] theorem Port.bckLowFrom_leaving (t : Time) : (x.bckLowFrom t).leaving = x.leaving := rfl

@[simp] theorem Port.toRecovering_state (now : Time) : (x.toRecovering now).state = .recovering := rfl
@[simp] theorem Port.toRecovering_config (now : Time) : (x.toRecovering now).config = x.config := rfl
@[simp] theorem Port.toRecovering_stopPending (now : Time) : (x.toRecovering now).stopPending = x.stopPending := rfl
@[simp] theorem Port.toRecovering_bckDriver (now : Time) : (x.toRecovering now).bckDriver = .released := rfl
@[simp] theorem Port.toRecovering_bdaDriver (now : Time) : (x.toRecovering now).bdaDriver = .released := rfl
@[simp] theorem Port.toRecovering_busView (now : Time) : (x.toRecovering now).busView = .busy := rfl
@[simp] theorem Port.toRecovering_idleSince (now : Time) : (x.toRecovering now).idleSince = none := rfl
@[simp] theorem Port.toRecovering_idleFull (now : Time) : (x.toRecovering now).idleFull = false := rfl
@[simp] theorem Port.toRecovering_bckLowSince (now : Time) : (x.toRecovering now).bckLowSince = (if x.bckLowSince.isSome then x else x.bckFalls now).bckLowSince := rfl
@[simp] theorem Port.toRecovering_bdaLowSince (now : Time) : (x.toRecovering now).bdaLowSince = (if x.bckLowSince.isSome then x else x.bckFalls now).bdaLowSince := rfl
@[simp] theorem Port.toRecovering_silenceSince (now : Time) : (x.toRecovering now).silenceSince = none := rfl
@[simp] theorem Port.toRecovering_frame (now : Time) : (x.toRecovering now).frame = none := rfl
@[simp] theorem Port.toRecovering_stats (now : Time) : (x.toRecovering now).stats = x.stats := rfl
@[simp] theorem Port.toRecovering_window (now : Time) : (x.toRecovering now).window = x.window := rfl
@[simp] theorem Port.toRecovering_nextToken (now : Time) : (x.toRecovering now).nextToken = x.nextToken := rfl
@[simp] theorem Port.toRecovering_recovery (now : Time) : (x.toRecovering now).recovery = some (if x.bckLowSince.isSome then { phase := .waiting, pulses := 0, waitSince := now } else x.firstPulse now) := rfl
@[simp] theorem Port.toRecovering_leaving (now : Time) : (x.toRecovering now).leaving = x.leaving := rfl

@[simp] theorem Port.toFaulted_state : x.toFaulted.state = .faulted := rfl
@[simp] theorem Port.toFaulted_config : x.toFaulted.config = x.config := rfl
@[simp] theorem Port.toFaulted_stopPending : x.toFaulted.stopPending = x.stopPending := rfl
@[simp] theorem Port.toFaulted_bckDriver : x.toFaulted.bckDriver = .released := rfl
@[simp] theorem Port.toFaulted_bdaDriver : x.toFaulted.bdaDriver = .released := rfl
@[simp] theorem Port.toFaulted_busView : x.toFaulted.busView = .busy := rfl
@[simp] theorem Port.toFaulted_idleSince : x.toFaulted.idleSince = none := rfl
@[simp] theorem Port.toFaulted_idleFull : x.toFaulted.idleFull = false := rfl
@[simp] theorem Port.toFaulted_bckLowSince : x.toFaulted.bckLowSince = x.bckLowSince := rfl
@[simp] theorem Port.toFaulted_bdaLowSince : x.toFaulted.bdaLowSince = x.bdaLowSince := rfl
@[simp] theorem Port.toFaulted_silenceSince : x.toFaulted.silenceSince = none := rfl
@[simp] theorem Port.toFaulted_frame : x.toFaulted.frame = none := rfl
@[simp] theorem Port.toFaulted_stats : x.toFaulted.stats = x.stats := rfl
@[simp] theorem Port.toFaulted_window : x.toFaulted.window = x.window := rfl
@[simp] theorem Port.toFaulted_nextToken : x.toFaulted.nextToken = x.nextToken := rfl
@[simp] theorem Port.toFaulted_recovery : x.toFaulted.recovery = none := rfl
@[simp] theorem Port.toFaulted_leaving : x.toFaulted.leaving = x.leaving := rfl

@[simp] theorem Port.toObserving_state (f : FrameRec) : (x.toObserving f).state = .observing := rfl
@[simp] theorem Port.toObserving_config (f : FrameRec) : (x.toObserving f).config = x.config := rfl
@[simp] theorem Port.toObserving_stopPending (f : FrameRec) : (x.toObserving f).stopPending = x.stopPending := rfl
@[simp] theorem Port.toObserving_bckDriver (f : FrameRec) : (x.toObserving f).bckDriver = .released := rfl
@[simp] theorem Port.toObserving_bdaDriver (f : FrameRec) : (x.toObserving f).bdaDriver = .released := rfl
@[simp] theorem Port.toObserving_busView (f : FrameRec) : (x.toObserving f).busView = .busy := rfl
@[simp] theorem Port.toObserving_idleSince (f : FrameRec) : (x.toObserving f).idleSince = none := rfl
@[simp] theorem Port.toObserving_idleFull (f : FrameRec) : (x.toObserving f).idleFull = false := rfl
@[simp] theorem Port.toObserving_bckLowSince (f : FrameRec) : (x.toObserving f).bckLowSince = x.bckLowSince := rfl
@[simp] theorem Port.toObserving_bdaLowSince (f : FrameRec) : (x.toObserving f).bdaLowSince = x.bdaLowSince := rfl
@[simp] theorem Port.toObserving_silenceSince (f : FrameRec) : (x.toObserving f).silenceSince = x.silenceSince := rfl
@[simp] theorem Port.toObserving_frame (f : FrameRec) : (x.toObserving f).frame = some { f with role := .observer, turn := none, service := none } := rfl
@[simp] theorem Port.toObserving_stats (f : FrameRec) : (x.toObserving f).stats = x.stats := rfl
@[simp] theorem Port.toObserving_window (f : FrameRec) : (x.toObserving f).window = x.window := rfl
@[simp] theorem Port.toObserving_nextToken (f : FrameRec) : (x.toObserving f).nextToken = x.nextToken := rfl
@[simp] theorem Port.toObserving_recovery (f : FrameRec) : (x.toObserving f).recovery = none := rfl
@[simp] theorem Port.toObserving_leaving (f : FrameRec) : (x.toObserving f).leaving = x.leaving := rfl

@[simp] theorem Port.endHold_state (now : Time) (bck : Level) : (x.endHold now bck).state = .serving := rfl
@[simp] theorem Port.endHold_config (now : Time) (bck : Level) : (x.endHold now bck).config = x.config := rfl
@[simp] theorem Port.endHold_stopPending (now : Time) (bck : Level) : (x.endHold now bck).stopPending = x.stopPending := rfl
@[simp] theorem Port.endHold_bckDriver (now : Time) (bck : Level) : (x.endHold now bck).bckDriver = .released := rfl
@[simp] theorem Port.endHold_bdaDriver (now : Time) (bck : Level) : (x.endHold now bck).bdaDriver = x.bdaDriver := rfl
@[simp] theorem Port.endHold_busView (now : Time) (bck : Level) : (x.endHold now bck).busView = x.busView := rfl
@[simp] theorem Port.endHold_idleSince (now : Time) (bck : Level) : (x.endHold now bck).idleSince = x.idleSince := rfl
@[simp] theorem Port.endHold_idleFull (now : Time) (bck : Level) : (x.endHold now bck).idleFull = x.idleFull := rfl
@[simp] theorem Port.endHold_bckLowSince (now : Time) (bck : Level) : (x.endHold now bck).bckLowSince = lowFrom bck now := rfl
@[simp] theorem Port.endHold_bdaLowSince (now : Time) (bck : Level) : (x.endHold now bck).bdaLowSince = some now := rfl
@[simp] theorem Port.endHold_silenceSince (now : Time) (bck : Level) : (x.endHold now bck).silenceSince = if bck = .recessive then some now else none := rfl
@[simp] theorem Port.endHold_frame (now : Time) (bck : Level) : (x.endHold now bck).frame = x.frame := rfl
@[simp] theorem Port.endHold_stats (now : Time) (bck : Level) : (x.endHold now bck).stats = x.stats := rfl
@[simp] theorem Port.endHold_window (now : Time) (bck : Level) : (x.endHold now bck).window = x.window := rfl
@[simp] theorem Port.endHold_nextToken (now : Time) (bck : Level) : (x.endHold now bck).nextToken = x.nextToken := rfl
@[simp] theorem Port.endHold_recovery (now : Time) (bck : Level) : (x.endHold now bck).recovery = x.recovery := rfl
@[simp] theorem Port.endHold_leaving (now : Time) (bck : Level) : (x.endHold now bck).leaving = x.leaving := rfl

@[simp] theorem Port.clocked_state (now : Time) (last : Level) (bit : Nat) : (x.clocked now last bit).state = x.state := rfl
@[simp] theorem Port.clocked_config (now : Time) (last : Level) (bit : Nat) : (x.clocked now last bit).config = x.config := rfl
@[simp] theorem Port.clocked_stopPending (now : Time) (last : Level) (bit : Nat) : (x.clocked now last bit).stopPending = x.stopPending := rfl
@[simp] theorem Port.clocked_bckDriver (now : Time) (last : Level) (bit : Nat) : (x.clocked now last bit).bckDriver = x.bckDriver := rfl
@[simp] theorem Port.clocked_bdaDriver (now : Time) (last : Level) (bit : Nat) : (x.clocked now last bit).bdaDriver = x.bdaDriver := rfl
@[simp] theorem Port.clocked_busView (now : Time) (last : Level) (bit : Nat) : (x.clocked now last bit).busView = x.busView := rfl
@[simp] theorem Port.clocked_idleSince (now : Time) (last : Level) (bit : Nat) : (x.clocked now last bit).idleSince = x.idleSince := rfl
@[simp] theorem Port.clocked_idleFull (now : Time) (last : Level) (bit : Nat) : (x.clocked now last bit).idleFull = x.idleFull := rfl
@[simp] theorem Port.clocked_bckLowSince (now : Time) (last : Level) (bit : Nat) : (x.clocked now last bit).bckLowSince = none := rfl
@[simp] theorem Port.clocked_bdaLowSince (now : Time) (last : Level) (bit : Nat) : (x.clocked now last bit).bdaLowSince = lowFrom last (x.bdaLowAt now bit) := rfl
@[simp] theorem Port.clocked_silenceSince (now : Time) (last : Level) (bit : Nat) : (x.clocked now last bit).silenceSince = some now := rfl
@[simp] theorem Port.clocked_frame (now : Time) (last : Level) (bit : Nat) : (x.clocked now last bit).frame = x.frame := rfl
@[simp] theorem Port.clocked_stats (now : Time) (last : Level) (bit : Nat) : (x.clocked now last bit).stats = x.stats := rfl
@[simp] theorem Port.clocked_window (now : Time) (last : Level) (bit : Nat) : (x.clocked now last bit).window = x.window := rfl
@[simp] theorem Port.clocked_nextToken (now : Time) (last : Level) (bit : Nat) : (x.clocked now last bit).nextToken = x.nextToken := rfl
@[simp] theorem Port.clocked_recovery (now : Time) (last : Level) (bit : Nat) : (x.clocked now last bit).recovery = x.recovery := rfl
@[simp] theorem Port.clocked_leaving (now : Time) (last : Level) (bit : Nat) : (x.clocked now last bit).leaving = x.leaving := rfl

@[simp] theorem Port.bckHeld_state (now : Time) (bit : Nat) (bda : Driver) : (x.bckHeld now bit bda).state = x.state := rfl
@[simp] theorem Port.bckHeld_config (now : Time) (bit : Nat) (bda : Driver) : (x.bckHeld now bit bda).config = x.config := rfl
@[simp] theorem Port.bckHeld_stopPending (now : Time) (bit : Nat) (bda : Driver) : (x.bckHeld now bit bda).stopPending = x.stopPending := rfl
@[simp] theorem Port.bckHeld_bckDriver (now : Time) (bit : Nat) (bda : Driver) : (x.bckHeld now bit bda).bckDriver = x.bckDriver := rfl
@[simp] theorem Port.bckHeld_bdaDriver (now : Time) (bit : Nat) (bda : Driver) : (x.bckHeld now bit bda).bdaDriver = bda := rfl
@[simp] theorem Port.bckHeld_busView (now : Time) (bit : Nat) (bda : Driver) : (x.bckHeld now bit bda).busView = x.busView := rfl
@[simp] theorem Port.bckHeld_idleSince (now : Time) (bit : Nat) (bda : Driver) : (x.bckHeld now bit bda).idleSince = x.idleSince := rfl
@[simp] theorem Port.bckHeld_idleFull (now : Time) (bit : Nat) (bda : Driver) : (x.bckHeld now bit bda).idleFull = x.idleFull := rfl
@[simp] theorem Port.bckHeld_bckLowSince (now : Time) (bit : Nat) (bda : Driver) : (x.bckHeld now bit bda).bckLowSince = some (x.lastFall now bit) := rfl
@[simp] theorem Port.bckHeld_bdaLowSince (now : Time) (bit : Nat) (bda : Driver) : (x.bckHeld now bit bda).bdaLowSince = if bda = .drivenLow ∨ x.bdaLowSince.isSome then some (x.bdaLowAt now bit) else none := rfl
@[simp] theorem Port.bckHeld_silenceSince (now : Time) (bit : Nat) (bda : Driver) : (x.bckHeld now bit bda).silenceSince = none := rfl
@[simp] theorem Port.bckHeld_frame (now : Time) (bit : Nat) (bda : Driver) : (x.bckHeld now bit bda).frame = x.frame := rfl
@[simp] theorem Port.bckHeld_stats (now : Time) (bit : Nat) (bda : Driver) : (x.bckHeld now bit bda).stats = x.stats := rfl
@[simp] theorem Port.bckHeld_window (now : Time) (bit : Nat) (bda : Driver) : (x.bckHeld now bit bda).window = x.window := rfl
@[simp] theorem Port.bckHeld_nextToken (now : Time) (bit : Nat) (bda : Driver) : (x.bckHeld now bit bda).nextToken = x.nextToken := rfl
@[simp] theorem Port.bckHeld_recovery (now : Time) (bit : Nat) (bda : Driver) : (x.bckHeld now bit bda).recovery = x.recovery := rfl
@[simp] theorem Port.bckHeld_leaving (now : Time) (bit : Nat) (bda : Driver) : (x.bckHeld now bit bda).leaving = x.leaving := rfl

@[simp] theorem Port.seesClosing_state (now : Time) : (x.seesClosing now).state = x.state := rfl
@[simp] theorem Port.seesClosing_config (now : Time) : (x.seesClosing now).config = x.config := rfl
@[simp] theorem Port.seesClosing_stopPending (now : Time) : (x.seesClosing now).stopPending = x.stopPending := rfl
@[simp] theorem Port.seesClosing_bckDriver (now : Time) : (x.seesClosing now).bckDriver = x.bckDriver := rfl
@[simp] theorem Port.seesClosing_bdaDriver (now : Time) : (x.seesClosing now).bdaDriver = x.bdaDriver := rfl
@[simp] theorem Port.seesClosing_busView (now : Time) : (x.seesClosing now).busView = x.busView := rfl
@[simp] theorem Port.seesClosing_idleSince (now : Time) : (x.seesClosing now).idleSince = some now := rfl
@[simp] theorem Port.seesClosing_idleFull (now : Time) : (x.seesClosing now).idleFull = false := rfl
@[simp] theorem Port.seesClosing_bckLowSince (now : Time) : (x.seesClosing now).bckLowSince = none := rfl
@[simp] theorem Port.seesClosing_bdaLowSince (now : Time) : (x.seesClosing now).bdaLowSince = none := rfl
@[simp] theorem Port.seesClosing_silenceSince (now : Time) : (x.seesClosing now).silenceSince = x.silenceSince := rfl
@[simp] theorem Port.seesClosing_frame (now : Time) : (x.seesClosing now).frame = x.frame := rfl
@[simp] theorem Port.seesClosing_stats (now : Time) : (x.seesClosing now).stats = x.stats := rfl
@[simp] theorem Port.seesClosing_window (now : Time) : (x.seesClosing now).window = x.window := rfl
@[simp] theorem Port.seesClosing_nextToken (now : Time) : (x.seesClosing now).nextToken = x.nextToken := rfl
@[simp] theorem Port.seesClosing_recovery (now : Time) : (x.seesClosing now).recovery = x.recovery := rfl
@[simp] theorem Port.seesClosing_leaving (now : Time) : (x.seesClosing now).leaving = x.leaving := rfl

@[simp] theorem Port.seeOpening_state (now : Time) : (x.seeOpening now).state = .observing := rfl
@[simp] theorem Port.seeOpening_config (now : Time) : (x.seeOpening now).config = x.config := rfl
@[simp] theorem Port.seeOpening_stopPending (now : Time) : (x.seeOpening now).stopPending = x.stopPending := rfl
@[simp] theorem Port.seeOpening_bckDriver (now : Time) : (x.seeOpening now).bckDriver = .released := rfl
@[simp] theorem Port.seeOpening_bdaDriver (now : Time) : (x.seeOpening now).bdaDriver = .released := rfl
@[simp] theorem Port.seeOpening_busView (now : Time) : (x.seeOpening now).busView = .busy := rfl
@[simp] theorem Port.seeOpening_idleSince (now : Time) : (x.seeOpening now).idleSince = none := rfl
@[simp] theorem Port.seeOpening_idleFull (now : Time) : (x.seeOpening now).idleFull = false := rfl
@[simp] theorem Port.seeOpening_bckLowSince (now : Time) : (x.seeOpening now).bckLowSince = none := rfl
@[simp] theorem Port.seeOpening_bdaLowSince (now : Time) : (x.seeOpening now).bdaLowSince = some now := rfl
@[simp] theorem Port.seeOpening_silenceSince (now : Time) : (x.seeOpening now).silenceSince = some now := rfl
@[simp] theorem Port.seeOpening_frame (now : Time) : (x.seeOpening now).frame = some .fresh := rfl
@[simp] theorem Port.seeOpening_stats (now : Time) : (x.seeOpening now).stats = x.stats := rfl
@[simp] theorem Port.seeOpening_window (now : Time) : (x.seeOpening now).window = x.window := rfl
@[simp] theorem Port.seeOpening_nextToken (now : Time) : (x.seeOpening now).nextToken = x.nextToken := rfl
@[simp] theorem Port.seeOpening_recovery (now : Time) : (x.seeOpening now).recovery = none := rfl
@[simp] theorem Port.seeOpening_leaving (now : Time) : (x.seeOpening now).leaving = x.leaving := rfl

end Sys2Proof.Machine
end

