-- ==== Sys2Proof/Laws/Ops.lean ====
section
/-!
SUPPORT. One lemma for each shared operation that says once what it does, for later proofs to cite in its place.
-/
namespace Sys2Proof.Machine
open Sys2Proof.Safety

variable {s : State}

/-! ### Hand-over (R134, R179) -/

/-- R134: a ring that is FETCHING or STAGED hands its completion over. -/
theorem State.handOver_eq {r : SubId} {d : Done} {c : CplId} (hc : (s.sub r).completion = some c)
    (ho : (s.sub r).occupancy = .fetching ∨ (s.sub r).occupancy = .staged) :
    s.handOver r d = handedOver s r c
      { ring := r, tag := d.tag, tagAbsent := d.tagAbsent, release := (s.sub r).fetch, status := d.status,
        bytes := d.bytes, attempts := d.attempts, losses := d.losses, result := d.result } := by
  unfold State.handOver
  simp only [hc]
  rw [if_pos ho, ← hc]
  rfl

/-- R123: a ring that is EMPTY or COMPLETING has no completion to give. -/
theorem State.handOver_of_empty_or_completing {r : SubId} {d : Done}
    (ho : (s.sub r).occupancy = .empty ∨ (s.sub r).occupancy = .completing) : s.handOver r d = s := by
  unfold State.handOver
  dsimp only
  split
  · rfl
  · rw [if_neg]
    rcases ho with ho | ho <;> simp [ho]

/-- R134: a hand-over changes the submission rings and the completion rings alone. -/
theorem State.handOver_frame (r : SubId) (d : Done) : ∃ subs cpls, s.handOver r d = { s with subs, cpls } := by
  unfold State.handOver
  dsimp only
  split
  · exact ⟨_, _, rfl⟩
  · split <;> exact ⟨_, _, rfl⟩

theorem State.handOver_admin (r : SubId) (d : Done) : (s.handOver r d).admin = s.admin := by
  obtain ⟨_, _, h⟩ := s.handOver_frame r d
  rw [h]

/-- R179: the end of a command changes the submission rings, the completion rings and the command's phase alone. -/
theorem State.finishAdmin_frame (status : Status) (result : Word32) :
    ∃ subs cpls, s.finishAdmin status result = { s with subs, cpls, admin := .idle } := by
  obtain ⟨_, _, h⟩ := s.handOver_frame 0 { tag := s.adminTag, status, result }
  exact ⟨_, _, by rw [State.finishAdmin, h]⟩

/-- R178: the command that ring 0 carries is the one that the administration rows take. -/
theorem freshCmd_of_carries {tag : BitVec 16} {cmd : AdminCmd} (h : Carries s tag cmd) : s.freshCmd = some cmd := by
  obtain ⟨hl, ha, ho, hs, -⟩ := h
  simp [State.freshCmd, hl, ha, ho, hs]

/-- R179: the command in progress ends. -/
theorem finishAdmin_of_staged {tag : BitVec 16} {cmd : AdminCmd} {status : Status} {result : Word32}
    (ho : (s.sub 0).occupancy = .staged) (hs : (s.sub 0).staged = some (.admin tag cmd))
    (hc : (s.sub 0).completion = some 0) : s.finishAdmin status result = commandEnds s tag status result := by
  have ht : s.adminTag = tag := by simp [State.adminTag, hs]
  simp only [State.finishAdmin, State.handOver_eq hc (.inr ho), ht]
  rfl

/-- R67: the completion of a descriptor changes what its hand-over and the end of an ABORT change. -/
theorem State.complete_frame (r : SubId) (d : Done) :
    ∃ subs cpls admin, s.complete r d = { s with subs, cpls, admin } := by
  obtain ⟨_, _, h⟩ := s.handOver_frame r d
  unfold State.complete
  dsimp only
  split
  · split
    · obtain ⟨_, _, h'⟩ := (s.handOver r d).finishAdmin_frame ‹Status› 0
      exact ⟨_, _, _, by rw [h', h]⟩
    · exact ⟨_, _, _, h⟩
  · exact ⟨_, _, _, h⟩

/-! ### Interrupt messages (R151) -/

/-- R151: a message on a masked vector is kept pending. -/
theorem State.sendMessage_masked {v : VecId} (h : (s.vector v).masked = true) :
    s.sendMessage v = s.setVector v { s.vector v with pending := true } := by simp [State.sendMessage, h]

/-- R151, R152: a message on a vector that is not masked is issued with the address and data the vector then holds. -/
theorem State.sendMessage_unmasked {v : VecId} (h : (s.vector v).masked = false) :
    s.sendMessage v =
      { s with messages := s.messages ++ [{ vector := v, address := (s.vector v).address, data := (s.vector v).data }] } := by
  simp [State.sendMessage, h]

/-- R151: a message changes the vectors and the messages in flight alone. -/
theorem State.sendIf_frame (b : Bool) (v : VecId) :
    ∃ vectors messages, s.sendIf b v = { s with vectors, messages } := by
  cases b
  · exact ⟨_, _, rfl⟩
  · simp only [State.sendIf, if_true, State.sendMessage]
    split <;> exact ⟨_, _, rfl⟩

/-! ### Health table (R71 to R74) -/

/-- R71: a target that has an entry and fails. -/
theorem State.targetFailure_of_entry {p : PortId} {st : Station} {e : HealthEntry} (h : s.healthEntry p st = some e) :
    s.targetFailure p st =
      { s with
        health := s.health.filter (fun x => !x.names p st) ++
          [{ e with
             state := judged (saturate Config.countCap e.failed) (s.port p).config.barThreshold,
             failed := saturate Config.countCap e.failed }] } := by
  simp [State.targetFailure, h]

/-- R74: a target success changes the health table alone. -/
theorem State.targetSuccess_frame (p : PortId) (st : Station) :
    ∃ health, s.targetSuccess p st = { s with health } := by
  unfold State.targetSuccess
  split <;> exact ⟨_, rfl⟩

/-- A count that saturates stays within its maximum. -/
theorem saturate_le (cap n : Nat) : saturate cap n ≤ cap := by
  unfold saturate; split <;> omega

/-! ### Receive rings (R158 to R163) -/

/-- R158: the answer to a request for a slot. -/
theorem RcvRing.answer_granted_iff (k : RcvRing) :
    k.answer = .granted ↔ k.state = .active ∧ k.closing = false ∧ 0 < k.free := by
  unfold RcvRing.answer
  cases hs : k.state <;> cases hc : k.closing <;> simp

/-- R158, R163: a claim at posting changes the receive rings alone. -/
theorem State.claimAtPosting_frame (r : RcvId) (e : RcvEntry) :
    ∃ rcvs, s.claimAtPosting r e = { s with rcvs } := by
  unfold State.claimAtPosting
  split <;> exact ⟨_, rfl⟩

/-! ### Ends of happenings at a port -/

/-- R34, R35, R174: where no stop is pending on the port and the engine is RUNNING or HALTED, a happening brings about nothing
more. -/
theorem State.settle_of_plain {p : PortId} (h : Plain s p) (before : State) : s.settle p before = s := by
  obtain ⟨he, hp⟩ := h
  have h1 : s.settleStop p before = s := by simp [State.settleStop, hp]
  rcases he with he | he <;> simp [State.settle, h1, State.settleHalt, he]

/-- R170: while the device works, a port acts on what happens at it. -/
theorem State.atPort_of_live {p : PortId} {act leaves : Port → State} (h : s.live = true) :
    s.atPort p act leaves = act (s.port p) := by
  simp [State.atPort, h]

/-- R170: RUNNING and HALTED are engine states in which the device works. -/
theorem State.live_of_plain {p : PortId} (h : Plain s p) : s.live = true := by
  rcases h.1 with he | he <;> simp [State.live, he]

/-- A happening at a port acts at once while the device works, and then settles. -/
theorem State.event_of_live {p : PortId} {act leaves : Port → State} (h : s.live = true) :
    s.event p act leaves = (act (s.port p)).settle p s := by
  simp [State.event, State.atPort_of_live h]

/-- A happening within a frame acts on the port and its frame record. -/
theorem State.inFrame_of_live {p : PortId} {act leaves : Port → FrameRec → State} {f : FrameRec} (h : s.live = true)
    (hf : (s.port p).frame = some f) : s.inFrame p act leaves = (act (s.port p) f).settle p s := by
  simp [State.inFrame, State.event_of_live h, State.onFrame, hf]

/-- In FAILED a happening brings about nothing more at its end. -/
theorem State.settle_of_failed {p : PortId} (h : s.engine = .failed) (before : State) : s.settle p before = s := by
  simp [State.settle, State.settleStop, State.settleHalt, State.live, h]

/-- R170, R42: in FAILED a happening acts on a port that drives on, and on no other. -/
theorem State.atPort_of_failed {p : PortId} {act leaves : Port → State} (h : s.engine = .failed) :
    s.atPort p act leaves = if (s.port p).leaving then leaves (s.port p) else s := by
  simp [State.atPort, State.live, h]

/-- R42: what a port that has driven on is as it goes OFF, and that nothing else changes but its snapshot area. -/
theorem State.leavesFrame_eq (p : PortId) :
    s.leavesFrame p =
      { s with ports := s.ports.set p (s.port p).goOff, snapshots := s.snapshots.set p none } := rfl

/-- R12: the last bit of the byte or slot that a port's frame is in. -/
theorem Port.endBit_eq (x : Port) : x.endBit = Safety.endBit x := by
  unfold Port.endBit Safety.endBit
  cases x.frame with
  | none => rfl
  | some f => cases h : f.position <;> simp [Position.lastBit, h]

/-- R3, R21: the fall of BCK that began a bit. -/
theorem Port.lastFall_eq (x : Port) (now : Time) (bit : Nat) : x.lastFall now bit = Safety.lastFall x now bit := by
  unfold Port.lastFall Safety.lastFall Port.halfBit micros
  cases x.bckLowSince <;> cases x.frame <;> simp

/-- The later of two moments that are less than half the time base's range apart. -/
theorem reach_eq (t fall : Time) : reach t fall = if 2 ^ 31 ≤ (t - fall).toNat then fall else t := by
  simp [reach, BitVec.msb_eq_decide]

/-- R21: from when a BDA that is low counts at a rise of BCK. -/
theorem Port.bdaLowAt_eq (x : Port) (now : Time) (bit : Nat) : x.bdaLowAt now bit = Safety.bdaLowAt x now bit := by
  unfold Port.bdaLowAt Safety.bdaLowAt lowAfterFall
  cases x.bdaLowSince <;> simp [Port.lastFall_eq, reach_eq]

/-- R20, R21: a port after a rise of BCK. -/
theorem Port.clocked_eq (x : Port) (now : Time) (last : Level) (bit : Nat) :
    x.clocked now last bit = edgeSeen x now last bit := by
  simp only [Port.clocked, edgeSeen, lowFrom, Port.bdaLowAt_eq]

/-- R2, R20: a byte or slot that ends at a port whose frame goes on. -/
theorem State.setFrame_driveBda {p : PortId} {f : FrameRec} {last : Level} {d : Driver} :
    (s.setFrame p f last).driveBda p d = frameAt s p f d last := by
  simp only [State.driveBda, State.setFrame, frameAt, State.setPort_port_self, Port.clocked_eq, Port.endBit_eq]
  simp only [State.setPort, Vector.set_set]

/-- R2, R6: a byte or slot that ends at an initiator, whether its frame goes on or its closing follows. -/
theorem State.initiatorGoes_eq {p : PortId} {f : FrameRec} {bda : Driver} {last : Level} :
    s.initiatorGoes p f bda last = goesAt s p f bda last := by
  unfold State.initiatorGoes goesAt
  split
  · simp only [State.setFrame, closesAt, State.setPort_port_self, Port.clocked_eq, Port.endBit_eq]
    simp only [State.setPort, Vector.set_set]
    rfl
  · exact State.setFrame_driveBda

/-- R29: a port that follows a frame on from the end of a byte or slot. -/
theorem State.observeFrame_eq {p : PortId} {f : FrameRec} {last : Level} :
    s.observeFrame p f last = s.setPort p (observes (s.port p) f s.timeBase last) := by
  simp only [State.observeFrame, Port.clocked_eq, Port.endBit_eq]
  rfl

/-- R44, R123: what the execution record of a ring says of its context. -/
theorem State.staged_of_execOf {r : SubId} {x : StagedXfer} {e : ExecRec} (h : s.execOf r = some (x, e)) :
    s.stagedOf r = some x ∧ x.exec = some e ∧ (s.sub r).occupancy = .staged ∧ (s.sub r).staged = some (.xfer x) := by
  simp only [State.execOf, Option.bind_eq_some_iff, Option.map_eq_some_iff] at h
  obtain ⟨y, hy, e', he, heq⟩ := h
  cases heq
  refine ⟨hy, he, ?_⟩
  unfold State.stagedOf at hy
  split at hy
  · simp_all
  · simp at hy

/-- R67: where no ABORT waits for the descriptor, its completion is its hand-over. -/
theorem State.complete_of_noAbortWaits {r : SubId} {d : Done} (h : NoAbortWaits s r) :
    s.complete r d = s.handOver r d := by
  unfold State.complete
  dsimp only
  rw [State.handOver_admin]
  split
  · rw [if_neg]
    rintro rfl
    exact h _ ‹_›
  · rfl

end Sys2Proof.Machine
end

