-- ==== Sys2Proof/Tests/Slice0.lean ====
section
/-!
SUPPORT. The model's own tests. Three kinds stand here: the refusals of ill-formed commands by `Instr.wellFormed`
(`smoke_…`); results that the worked examples and the tables of spec/ give, one step each (`test_…`); and for every
statement with hypotheses a concrete state and operands that meet them, clause by clause (`witness_<statement>`).
-/
namespace Sys2Proof.Tests
open Sys2Proof.Machine Sys2Proof.Safety

set_option Elab.async false

/-! ### Well-formedness -/

theorem smoke_engine_command_codes :
    (Instr.unknownEngineCommand 1).wellFormed = false ∧ (Instr.unknownEngineCommand 5).wellFormed = false ∧
    (Instr.unknownEngineCommand 0).wellFormed = true ∧ (Instr.unknownEngineCommand 6).wellFormed = true := by decide

theorem smoke_ignored_register_write :
    (Instr.ignoredRegisterWrite 2 0xF 1).wellFormed = false ∧ (Instr.ignoredRegisterWrite 6 0xF 1).wellFormed = false ∧
    (Instr.ignoredRegisterWrite 5 0 1).wellFormed = true ∧
    (Instr.ignoredRegisterWrite 2 0x7 1).wellFormed = true ∧ (Instr.ignoredRegisterWrite 7 0xF 1).wellFormed = true := by
  decide

theorem smoke_setup_read_length :
    (Instr.setupReadEnd (.data (zeros 63))).wellFormed = false ∧
    (Instr.setupReadEnd (.data (zeros 64))).wellFormed = true := by decide

theorem smoke_slot_read_length :
    (Instr.slotReadEnd 1 (.data (zeros 65))).wellFormed = false ∧
    (Instr.slotReadEnd 1 (.data (zeros 64))).wellFormed = true := by decide

theorem smoke_payload_read_length :
    (Instr.payloadReadEnd 1 (.data [])).wellFormed = false ∧
    (Instr.payloadReadEnd 1 (.data (zeros 65))).wellFormed = false ∧
    (Instr.payloadReadEnd 1 (.data (zeros 64))).wellFormed = true := by decide

theorem smoke_reply_read_length :
    (Instr.setReplyReadEnd (.data [])).wellFormed = false ∧
    (Instr.setReplyReadEnd (.data (zeros 65))).wellFormed = false ∧
    (Instr.setReplyReadEnd (.data [1])).wellFormed = true := by decide

/-! ### Formats of chapter 11 -/

/-- 11.7: the header of the SEND from station 17 to station 36, as the spec builds it. -/
theorem test_header_of_the_arbitration_example : buildHeader .send 36 17 = 0x424046 := by decide

/-- R185: undefined bits of a descriptor are ignored. -/
theorem test_descriptor_ignores_reserved_bits :
    let bytes := [1, 0, 2, 0xFC, 0x05, 0xFC, 0, 0, 0, 0x2F] ++ zeros 54
    (decodeXfer bytes).map (fun d => (d.probe, d.decline, d.dest, d.attemptLimit)) = some (false, false, 5, 15) := by
  decide

/-- R12: the readings of an acknowledge slot. -/
theorem test_slot_readings :
    readSlot .dominant .dominant = .accept ∧ readSlot .dominant .recessive = .refuse ∧
    readSlot .recessive .dominant = .absent ∧ readSlot .recessive .recessive = .absent := by decide

/-- 11.1: POST and ACK, by their bits. -/
theorem test_register_words :
    postRing 0x0FFF001F = 31 ∧ postIndex 0x0FFF001F = 4095 ∧ ackRing 0x0003000F = .completion 15 ∧
    ackRing 0x80030002 = .receive 2 ∧ ackIndex 0x80030002 = 3 := by decide

/-- R177: 2^32 µs after 0 the time base is 0 again; a moment already passed leaves it alone. -/
theorem test_reach_across_the_wrap :
    reach 0xFFFFFFFF 4 = 4 ∧ reach 4 0xFFFFFFFF = 4 ∧ reach 9 9 = 9 := by decide

/-! ### Small states -/

/-- The state after a command. -/
def after (c : Instr) (s : State) : State :=
  match exec c s with
  | .next t => t
  | .fault r => nomatch r
  | .refused _ => s

/-- A submission ring of 8 slots on completion ring 0. -/
def ring8 : SubRing := { SubRing.reset with state := .active, base := 4096, size := 8, completion := some 0 }

/-- The engine just started: RUNNING, with rings 0 of 8 slots. -/
def running : State :=
  (({ State.reset with engine := .running } : State).setSub 0 ring8).setCpl 0 (CplRing.made 8192 8 0 1 0)

/-- Ring 0 holds a command with tag 7, in a phase of its execution. -/
def inPhase (phase : AdminPhase) (cmd : AdminCmd) (s : State := running) : State :=
  { s.setSub 0 { ring8 with occupancy := .staged, staged := some (.admin 7 cmd) } with admin := phase }

/-- Ring 0 holds a command that has not been taken. -/
def carrying (cmd : AdminCmd) (s : State := running) : State := inPhase .fresh cmd s

/-- The status and result word of the last completion handed to completion ring 0. -/
def lastStatus (s : State) : Option (Status × Word32) := (s.cpl 0).queue.getLast?.map fun e => (e.status, e.result)

/-- Station 5 at 125 kbit/s, idle on a free bus. -/
def idle5 : Port :=
  { Port.reset with state := .idle, busView := .free, idleSince := some 0, config := { PortConfig.reset with station := 5 } }

/-- A QUERY or the like to station 36. -/
def descOf (kind : XferKind) : Desc :=
  { tag := 3, kind, probe := false, decline := false, dest := 36, channel := 0, outLength := 2, replyCapacity := 2,
    attemptLimit := 2, deadline := 1, token := 9, outBuffer := 0, replyBuffer := 0 }

/-- A ring bound to port 0 at priority 4 with a staged descriptor. -/
def holding (d : Desc) (e : Option ExecRec) : SubRing :=
  { ring8 with
    port := some 0, priority := some 4, occupancy := .staged, producer := 1, fetch := 1,
    staged := some (.xfer { desc := d, payload := [0xA1, 0xA2], time := 0, exec := e }) }

/-- Ring 1 has staged a descriptor with a record in a state; port 0 is as given. -/
def staged (kind : XferKind) (q : ExecState) (x : Port := idle5) : State :=
  (running.setPort 0 x).setSub 1 (holding (descOf kind) (some (newRecord q 2)))

/-- Port 0 in a frame. -/
def inFrame (state : PortState) (f : FrameRec) : Port :=
  { idle5 with state, busView := .busy, idleSince := none, silenceSince := some 0, frame := some f }

/-- The port runs ring 1's frame. -/
def sends (position : Position) : FrameRec :=
  { FrameRec.fresh with
    role := .initiator, position, turn := some 1, rxHeader := buildHeader .query 36 5 }

/-- Port 0 runs the frame of ring 1's descriptor, at a position. -/
def initiating5 (kind : XferKind) (f : FrameRec) : State := staged kind .inAttempt (inFrame .initiating f)

/-- A match entry for all ports and kinds. -/
def entryFor (a : Action) : MatchEntry :=
  { MatchEntry.reset with valid := true, ports := 0xF, kinds := 7, action := some a, targetRing := 2, slot := 4 }

/-- The service record of a frame with one candidate. -/
def serviceOf (a : Action) : ServiceRec :=
  { candidates := [{ index := 6, entry := entryFor a }], hit := some { index := 6, entry := entryFor a }, verdict := none,
    reservation := none, discard := false, verdictTime := some 0, received := [], expected := 1, turnaround := none }

/-- The port serves a frame from station 9. -/
def serves (kind : FrameKind) (position : Position) (v : ServiceRec) : FrameRec :=
  { FrameRec.fresh with role := .target, position, rxHeader := buildHeader kind 5 9, channel := some 8, service := some v }

/-- Receive ring 2, of 8 slots, and port 0 as given. -/
def receiving (x : Port) (k : RcvRing := { RcvRing.reset with state := .active, size := 8 }) : State :=
  (running.setRcv 2 k).setPort 0 x

/-- Ring 0 holds an ABORT with tag 7 that waits for ring 1's descriptor and will complete SUCCESS. -/
def abortWaiting (s : State) : State := inPhase (.aborting 1 .success) (.abort 1 3) s

/-- An abort is pending on ring 1's descriptor. -/
def abortPending1 (s : State) : State := s.setSub 1 { s.sub 1 with abortPending := true }

/-- The details of a held query. -/
def query8 : QueryDetails := { token := 7, source := 9, channel := 8, length := 1, entry := 6, ring := 2 }

/-- Ring sizes and bases for the witnesses. -/
theorem place8 : RingPlace 8 64 := ⟨⟨3, by decide⟩, by decide⟩
theorem place4096 : RingPlace 4096 64 := ⟨⟨12, by decide⟩, by decide⟩
theorem not_place63 : ¬ RingPlace 8 63 := fun h => absurd h.2 (by decide)
theorem not_place9 : ¬ RingPlace 9 64 := by
  rintro ⟨⟨k, h3, h12, h⟩, -⟩
  interval_cases k <;> omega

/-! ### The queue and the engine -/

/-- The state after a step. -/
def stepped (s : State) : State :=
  match step s with
  | .next t => t
  | .fault r => nomatch r
  | .refused _ => s

theorem test_step_takes_the_front :
    (stepped { running with pending := [.halt, .resume] }).engine = .halted ∧
    (stepped { running with pending := [.halt, .resume] }).pending = [.resume] ∧
    (stepped { running with timeBase := 0xFFFFFFFF }).timeBase = 0 := by decide +kernel

theorem witness_StepRunsFrontCommand :
    ({ running with pending := [.halt] } : State).pending = .halt :: [] ∧ running.pending = [] := by decide +kernel

theorem witness_EngineCommandsByState :
    State.reset.engine = .disabled ∧ State.reset.setupAddress.toNat % 64 = 0 ∧
    ({ State.reset with setupAddress := 63 } : State).setupAddress.toNat % 64 ≠ 0 ∧ running.engine = .running ∧
    ((running.setPort 0 (inFrame .arbitrating FrameRec.fresh)).port 0).state = .arbitrating ∧
    ((carrying (.clearMatch 0)).sub 0).occupancy ≠ .empty ∧
    (∀ p, (running.port p).state ≠ .arbitrating ∧ (running.port p).state ≠ .initiating) ∧
    (running.sub 0).occupancy = .empty ∧ (after .halt running).engine = .halted ∧
    (happensAt (.opening 0)).isSome = true ∧ Quiet (after (.opening 0) (running.setPort 0 idle5)) ∧
    ¬ Quiet (after (.hold 0 0) (running.setPort 0 (inFrame .arbitrating FrameRec.fresh))) := by decide +kernel

/-- Each of these rows answers a next state. -/
theorem witness_EngineCommandsByState_rows (s : State) :
    exec (.opening 0) s = .next (after (.opening 0) s) ∧ exec (.hold 0 0) s = .next (after (.hold 0 0) s) := ⟨rfl, rfl⟩

/-- R174: HALT while a port is ARBITRATING leads to HALTING. -/
theorem test_halt_waits :
    (after .halt (running.setPort 0 (inFrame .arbitrating FrameRec.fresh))).engine = .halting := by decide +kernel

/-- R60, R174: in HALTED a frame goes on; in HALTING the happening that ends the last attempt ends HALTING. -/
theorem test_frames_while_halted :
    let s := running.setPort 0 (inFrame .arbitrating FrameRec.fresh)
    ((after (.opening 1) { (s.setPort 1 idle5) with engine := .halted }).port 1).state = .observing ∧
    (after (.closing 0) { s with engine := .halting }).engine = .halted ∧
    (after (.hold 0 0) { s with engine := .halting }).engine = .halting := by decide +kernel

/-- R173: ENABLE outside DISABLED sets CMD_REJECTED; a misaligned setup address fails with SETUP_INVALID. -/
theorem test_enable :
    (after .enable running).notes.cmdRejected = true ∧
    (after .enable { State.reset with setupAddress := 63 }).cause = .setupInvalid ∧
    (after .enable { State.reset with setupAddress := 64 }).setupRead = some 64 := by decide +kernel

/-- R175, R176, R182, R183. -/
theorem test_resume_notes_and_resets :
    let s : State :=
      { running with
        engine := .halted, setupAddress := 64,
        notes := { postRejected := true, ackRejected := true, cmdRejected := true } }
    (after .resume s).engine = .running ∧ (after .resume running).notes.cmdRejected = true ∧
    (after (.clearNotes 5) s).notes = { postRejected := false, ackRejected := true, cmdRejected := false } ∧
    after .softReset s = { State.reset with setupAddress := 64 } ∧ after .powerOn s = State.reset := by decide +kernel

theorem test_engine_word :
    ({ running with notes := { postRejected := true, ackRejected := false, cmdRejected := true } } : State).readWord 2
      = 0x502 ∧ (running.fail .messageWriteFault).readWord 2 = 0x65 := by decide +kernel

theorem witness_NotesChangeOnlyAsStated :
    (Instr.unknownEngineCommand 15).wellFormed = true ∧
    exec (.unknownEngineCommand 15) running = .next (commandRejected running) := ⟨by decide, rfl⟩

theorem witness_SetupAddressKeptAndReadByEnable :
    (∃ t, exec .enable State.reset = .next t) ∧ Instr.halt ≠ .enable ∧ Instr.halt ≠ .powerOn ∧
    (∀ high v, Instr.halt ≠ .setupAddressWrite high v) ∧ ∃ t, exec .halt running = .next t :=
  ⟨⟨_, rfl⟩, nofun, nofun, nofun, ⟨_, rfl⟩⟩

/-- R172: each half is replaced alone. -/
theorem test_setup_address_halves :
    (after (.setupAddressWrite true 0x11223344) { running with setupAddress := 0x8877665544332211 }).setupAddress
      = 0x1122334444332211 ∧
    (after (.setupAddressWrite false 0xAABBCCDD) { running with setupAddress := 0x8877665544332211 }).setupAddress
      = 0x88776655AABBCCDD := by decide +kernel

theorem witness_PostTakenOrRejected :
    (0 : SubId).val = (0x00070000 : Word32).toNat % 32 ∧ 7 = (0x00070000 : Word32).toNat / 65536 % 4096 ∧
    (running.sub 0).state = .active ∧ 7 < (running.sub 0).size ∧
    8 = (0x00080000 : Word32).toNat / 65536 % 4096 ∧ (running.sub 0).size ≤ 8 ∧ (running.sub 1).state ≠ .active := by
  decide +kernel

theorem test_post :
    ((after (.post 0x00070000) running).sub 0).producer = 7 ∧
    (after (.post 0x00080000) running).notes.postRejected = true ∧
    (after (.post 0x00000001) running).notes.postRejected = true := by decide +kernel

/-- Completion ring 0 with six unconsumed records (tail 6, consumer 0), in an interrupt state. -/
def sixLeft (q : IrqState) : State :=
  running.setCpl 0
    { CplRing.made 8192 8 3 4 200 with
      tail := 6, irq := { Irq.reset with vector := 3, threshold := 4, delay := 200, state := q } }

/-- The same of receive ring 2. -/
def sixReceived (q : IrqState) : State :=
  receiving idle5
    { RcvRing.reset with
      state := .active, size := 8, tail := 6, irq := { Irq.reset with vector := 3, threshold := 4, delay := 200, state := q } }

theorem witness_AckTakenOrRejected :
    1 = (0x00010000 : Word32).toNat / 65536 % 4096 ∧ (0x00010000 : Word32).toNat < 2 ^ 31 ∧
    0 < ringDistance 8 6 1 ∧ ¬ 0 < ringDistance 8 6 6 ∧
    ¬ ackRejectedFor (sixLeft .sent) .active 8 6 0 1 ∧ ¬ ackRejectedFor (sixLeft .sent) .active 8 6 0 6 ∧
    ackRejectedFor (sixLeft .sent) .active 8 6 0 7 ∧ ackRejectedFor (sixLeft .sent) .active 8 6 0 8 ∧
    2 ^ 31 ≤ (0x80010002 : Word32).toNat ∧ (2 : RcvId).val = (0x80010002 : Word32).toNat % 16 ∧
    ((sixReceived .counting).rcv 2).irq.state = .counting ∧ ((sixLeft .armed).cpl 0).irq.state = .armed := by
  refine ⟨by decide, by decide, by decide, by decide, ?_, ?_, ?_, ?_, by decide, by decide, by decide +kernel,
    by decide +kernel⟩ <;> unfold ackRejectedFor <;> decide +kernel

/-- R146, R150: an ACK past the tail is rejected; one that leaves records in SENT sends a message and stays SENT; one
that leaves none goes to ARMED. -/
theorem test_ack :
    (after (.ack 0x00070000) (sixLeft .sent)).notes.ackRejected = true ∧
    ((after (.ack 0x00070000) (sixLeft .sent)).cpl 0).consumer = 0 ∧
    ((after (.ack 0x00010000) (sixLeft .sent)).cpl 0).irq.state = .sent ∧
    ((after (.ack 0x00010000) (sixLeft .sent)).vector 3).pending = true ∧
    ((after (.ack 0x00060000) (sixLeft .sent)).cpl 0).irq.state = .armed ∧
    ((after (.ack 0x00060000) (sixLeft .sent)).vector 3).pending = false ∧
    ((after (.ack 0x80060002) (sixReceived .sent)).rcv 2).consumer = 6 := by decide +kernel

theorem witness_RegisterWindowAccesses :
    3 < 4 ∧ (0x0 : BitVec 4) ≠ 0xF ∧ (0x1 : BitVec 4) ≠ 0xF ∧ (0xE : BitVec 4) ≠ 0xF ∧
    (∀ enables : BitVec 4, (registerCommand 5 enables 1).wellFormed = true) ∧
    [0x0, 0x1, 0xE, 0xF].map (fun enables => registerCommand 5 enables 1) =
      [.ignoredRegisterWrite 5 0x0 1, .ignoredRegisterWrite 5 0x1 1, .ignoredRegisterWrite 5 0xE 1, .post 1] ∧
    [0, 1, 7].map (fun word => registerCommand word 0xF 1) =
      [.ignoredRegisterWrite 0 0xF 1, .ignoredRegisterWrite 1 0xF 1, .ignoredRegisterWrite 7 0xF 1] ∧
    (0x00000780 : Word32).toNat % 16 = 0 ∧ (0xFFFFFFF1 : Word32).toNat % 16 = 1 ∧ (0x00000505 : Word32).toNat % 16 = 5 ∧
    (6 : Word32).toNat % 16 = 6 ∧ (2 : Word32).toNat % 16 = 2 ∧ (3 : Word32).toNat % 16 = 3 ∧
    (0x00000704 : Word32).toNat % 16 = 4 := by decide

/-- R184, R171, 11.1: a write of ENGINE is judged by bits 3:0, and the selection stands in bits 10:8; a write of three bytes
is ignored. -/
theorem test_register_writes :
    registerCommand 2 0xF 0xFFFFF8F1 = .enable ∧ registerCommand 2 0xF 0x00000504 = .clearNotes 5 ∧
    registerCommand 2 0xF 0x00000780 = .unknownEngineCommand 0 ∧ registerCommand 2 0xF 0x0000000F = .unknownEngineCommand 15 ∧
    registerCommand 2 0x7 1 = .ignoredRegisterWrite 2 0x7 1 ∧ registerCommand 6 0xF 0x80030002 = .ack 0x80030002 ∧
    (running.writeRegister 5 0xF 1).pending = [.post 1] := by decide +kernel

/-- A setup block: both rings of 8 slots at bases 64 and 128, vector 15, threshold 255, delay 0. -/
def setupBytes : List Byte :=
  leBytes 8 (64 : Addr) ++ [8, 0] ++ zeros 6 ++ leBytes 8 (128 : Addr) ++ [8, 0, 15, 255] ++ zeros 36

theorem witness_SetupReadEndStartsEngine :
    let s := after .enable State.reset
    let b := decodeSetup setupBytes
    s.engine = .starting ∧ s.setupRead = some 0 ∧ setupBytes.length = 64 ∧
    RingPlace b.adminSize b.adminBase ∧ RingPlace b.completionSize b.completionBase ∧ b.vector ≤ 15 ∧
    1 ≤ b.threshold ∧ b.threshold ≤ 255 ∧ (15 : VecId).val = b.vector ∧
    ¬ (1 ≤ (decodeSetup (zeros 64)).threshold) ∧ running.engine ≠ .starting :=
  ⟨by decide +kernel, by decide +kernel, by decide, ⟨⟨3, by decide⟩, by decide⟩, ⟨⟨3, by decide⟩, by decide⟩,
    by decide, by decide, by decide, by decide, by decide, by decide +kernel⟩

theorem test_setup_read :
    (after (.setupReadEnd (.data setupBytes)) (after .enable State.reset)).engine = .running ∧
    ((after (.setupReadEnd (.data setupBytes)) (after .enable State.reset)).cpl 0).irq.threshold = 255 ∧
    (after (.setupReadEnd (.data (zeros 64))) (after .enable State.reset)).cause = .setupInvalid ∧
    (after (.setupReadEnd .fault) (after .enable State.reset)).cause = .setupFault := by decide +kernel

/-- Ring 0 reads its next slot. -/
def fetching0 : State := running.setSub 0 { ring8 with occupancy := .fetching, reading := some .slot, producer := 1 }

/-- Completion ring 0 writes a record of ring 1. -/
def writing (q : Irq := Irq.reset) : State :=
  let e : CplEntry := plainEntry running 1 3 .success
  (running.setSub 1 { ring8 with occupancy := .completing, port := some 0, priority := some 0 }).setCpl 0
    { CplRing.made 8192 8 0 1 0 with
      reserved := 1, queue := [e], writing := some { address := 8192, bytes := [] }, tail := 7, consumer := 3,
      irq := q }

theorem witness_EntryIntoFailed :
    DrivesOn ((running.setPort 0 (inFrame .initiating (sends .channelByte))).port 0) ∧
    ¬ DrivesOn (inFrame .initiating { sends .channelByte with holdSince := some 0 }) ∧
    ¬ DrivesOn (inFrame .arbitrating (sends .opening)) ∧ ¬ DrivesOn (running.port 1) ∧ fetching0.live = true ∧ (fetching0.sub 0).occupancy = .fetching ∧
    (fetching0.sub 0).reading = some .slot ∧ (∃ e rest, (writing.cpl 0).queue = e :: rest) ∧
    (∃ w, (writing.cpl 0).writing = some w) ∧
    ({ running with messages := [{ vector := 1, address := 4, data := 2 }] } : State).messages =
      [] ++ { vector := 1, address := 4, data := 2 } :: [] :=
  ⟨⟨.inr (.inl rfl), _, rfl, rfl, nofun⟩, by rintro ⟨_, _, ⟨⟩, ⟨⟩, _⟩,
    by rintro ⟨_, _, ⟨⟩, _, h⟩; exact h rfl, by rintro ⟨_, _, ⟨⟩, _⟩, by decide +kernel, by decide +kernel,
    by decide +kernel, ⟨_, _, rfl⟩, ⟨_, rfl⟩, rfl⟩

/-- Port 0 serves a SEND's header slot with ACCEPT, port 1 sends a QUERY's channel byte, and the engine fails. -/
def failing : State :=
  ((running.setPort 0
      { inFrame .serving { FrameRec.fresh with
          role := .target, position := .headerSlot,
          service := some { ServiceRec.fresh [] with verdict := some .accept } } with
        window := .none }).setPort 1 (inFrame .initiating (sends .channelByte))).fail .receiveWriteFault

theorem witness_EntryIntoFailed_leaving :
    failing.engine = .failed ∧ (failing.port 0).leaving = true ∧ (failing.port 0).state = .serving ∧
    (∃ f, (failing.port 0).frame = some f) ∧ (failing.port 1).leaving = true ∧ (failing.port 1).state = .initiating ∧
    (∃ f, (failing.port 1).frame = some f) ∧ (failing.port 2).leaving = false ∧
    endsPart (.acknowledgeSlot 0 .dominant .dominant) = some 0 ∧ mayEndPart (.overridden 0 0) = some 0 ∧
    withinPart (.lineGoesLow 0 .bck .falls) = some 0 ∧ withinPart (.hold 0 1) = some 0 ∧
    happensAt (.idleGap 0) = some 0 ∧ endsPart (.idleGap 0) = none ∧ mayEndPart (.idleGap 0) = none ∧
    withinPart (.idleGap 0) = none :=
  ⟨by decide +kernel, by decide +kernel, by decide +kernel, Option.isSome_iff_exists.mp (by decide +kernel),
    by decide +kernel, by decide +kernel, Option.isSome_iff_exists.mp (by decide +kernel), by decide +kernel, rfl, rfl, rfl, rfl, rfl, rfl, rfl, rfl⟩

/-- R42: a fall of BCK and another station's hold leave a serving port driving its slot, whose end releases the lines; an
initiator that waits out a hold is OFF at once. -/
theorem test_drives_on_to_the_end_of_the_slot :
    let t := after (.hold 0 1) (after (.lineGoesLow 0 .bck .falls) failing)
    (t.port 0).state = .serving ∧ (t.port 0).bdaDriver = .drivenLow ∧ (t.port 0).leaving = true ∧
    (let u := after (.acknowledgeSlot 0 .dominant .dominant) t
     (u.port 0).state = .off ∧ (u.port 0).bdaDriver = .released) ∧
    ((after (.lineGoesLow 1 .bck .falls) failing).port 1).state = .initiating ∧
    ((after (.hold 1) failing).port 1).state = .off := by decide +kernel

/-- R42, R180: a port in its frame drives on to the end of its byte, and is then OFF; an idle port is OFF at once. -/
theorem test_entry_into_failed :
    let s := (running.setPort 0 (inFrame .initiating (sends .channelByte))).setPort 1 idle5
    let t := (s.setSub 0 { ring8 with occupancy := .fetching, reading := some .slot })
    let u := after (.slotReadEnd 0 .fault) t
    u.engine = .failed ∧ u.cause = .adminFetchFault ∧ (u.port 0).state = .initiating ∧ (u.port 1).state = .off ∧
    ((after (.acknowledgeSlot 0 .dominant .dominant) u).port 0).state = .off := by decide +kernel

theorem witness_FailedStaysFailed :
    (running.fail .setupFault).engine = .failed ∧ resets .enable = false ∧
    (∃ t, exec .enable (running.fail .setupFault) = .next t) ∧ (failing.port 0).leaving = true ∧ CauseMatches (running.fail .setupFault) ∧
    ∃ t, step running = .next t :=
  ⟨rfl, rfl, ⟨_, rfl⟩, by decide +kernel, by decide +kernel, ⟨_, rfl⟩⟩

/-! ### Submission rings -/

/-- Ring 1 is bound to port 0 and has one slot to fetch. -/
def posted1 : State := running.setSub 1 { ring8 with port := some 0, priority := some 4, producer := 1 }

theorem witness_FetchStartReservesCredit :
    (posted1.sub 1).completion = some 0 ∧ (posted1.sub 1).producer ≠ (posted1.sub 1).fetch ∧
    (posted1.cpl 0).unconsumed + (posted1.cpl 0).reserved < (posted1.cpl 0).size - 1 ∧
    ¬ ((sixLeft .sent).cpl 0).unconsumed + 1 < ((sixLeft .sent).cpl 0).size - 1 := by decide +kernel

/-- R126, R142: seven of eight slots can be promised, and a fetch beyond that does not start. -/
theorem test_fetch_start :
    ((after (.fetchStart 1) posted1).sub 1).occupancy = .fetching ∧
    ((after (.fetchStart 1) posted1).cpl 0).reserved = 1 ∧
    (let s := posted1.setCpl 0 { posted1.cpl 0 with tail := 6, reserved := 1 }
     ((after (.fetchStart 1) s).sub 1).occupancy = .empty) := by decide +kernel

/-- Ring 1 reads its slot, in a ring state. -/
def fetching1 (q : SubState := .active) (x : Port := idle5) : State :=
  (running.setPort 0 x).setSub 1
    { ring8 with
      state := q, port := some 0, priority := some 4, producer := 1, occupancy := .fetching, reading := some .slot }

/-- A transfer descriptor's 64 bytes: tag 3, a kind code, station 36, an out length and a reply capacity of 2. -/
def slotBytes (code out : Byte) : List Byte := [3, 0, code, 0, 36, 0, 0, out, 2] ++ zeros 55

theorem witness_ReadEndsBringDescriptorToStaging :
    fetching1.live = true ∧ (fetching1.sub 1).occupancy = .fetching ∧ (fetching1.sub 1).reading = some .slot ∧
    (fetching1.sub 1).completion = some 0 ∧ (slotBytes 2 1).length = 64 ∧ decodeXfer (slotBytes 9 0) = none ∧
    (∃ d, decodeXfer (slotBytes 2 65) = some d ∧ failsChecks d) ∧
    (∃ d, decodeXfer (slotBytes 1 65) = some d ∧ ¬ failsChecks d ∧ d.kind = .marker) ∧
    (∃ d, decodeXfer (slotBytes 2 64) = some d ∧ ¬ failsChecks d ∧ d.kind ≠ .marker ∧ 0 < d.outLength) ∧
    (∃ d, decodeXfer (slotBytes 5 0) = some d ∧ ¬ failsChecks d ∧ d.outLength = 0) ∧
    ((fetching1 .draining).sub 1).state = .draining ∧
    ((fetching1.setSub 1 { fetching1.sub 1 with reading := some (.payload (descOf .send)) }).sub 1).reading =
      some (.payload (descOf .send)) ∧ [0xA1, 0xA2].length = (descOf .send).outLength := by
  refine ⟨by decide +kernel, by decide +kernel, by decide +kernel, by decide +kernel, by decide, by decide,
    ⟨_, rfl, ?_⟩, ⟨_, rfl, ?_, by decide⟩, ⟨_, rfl, ?_, by decide, by decide⟩, ⟨_, rfl, ?_, by decide⟩,
    by decide +kernel, by decide +kernel, by decide⟩ <;> unfold failsChecks <;> decide

/-- R130: an out length of 65 completes BAD_DESCRIPTOR; a MARKER completes SUCCESS whatever its length. R132: with 1 out
byte the payload is read. R133: without one the descriptor is staged and considered. -/
theorem test_slot_read :
    lastStatus (after (.slotReadEnd 1 (.data (slotBytes 2 65))) fetching1) = some (.badDescriptor, 0) ∧
    lastStatus (after (.slotReadEnd 1 (.data (slotBytes 1 65))) fetching1) = some (.success, 0) ∧
    ((after (.slotReadEnd 1 (.data (slotBytes 2 1))) fetching1).sub 1).occupancy = .fetching ∧
    ((after (.slotReadEnd 1 (.data (slotBytes 2 0))) fetching1).execOf 1).map (·.2.state) = some .eligible := by
  decide +kernel

/-- R128: a slot read that faults makes the ring FAULTED and completes FETCH_FAULT without a tag. -/
theorem test_slot_read_fault :
    ((after (.slotReadEnd 1 .fault) fetching1).sub 1).state = .faulted ∧
    ((after (.slotReadEnd 1 .fault) fetching1).cpl 0).queue.map (·.tagAbsent) = [true] := by decide +kernel

/-- R131, R133: the payload is staged with the descriptor. -/
theorem test_payload_read :
    let s := after (.slotReadEnd 1 (.data (slotBytes 2 2))) fetching1
    ((after (.payloadReadEnd 1 (.data [0xA1, 0xA2])) s).stagedOf 1).map (·.payload) = some [0xA1, 0xA2] ∧
    lastStatus (after (.payloadReadEnd 1 .fault) s) = some (.fetchFault, 0) := by decide +kernel

/-- The health table knows station 36 on port 0. -/
def known (q : HealthState) (x : Port := idle5) : State :=
  { fetching1 .active x with health := [{ port := 0, station := 36, state := q, failed := 2 }] }

theorem witness_StagingConsidersAtOnce :
    (fetching1.sub 1).port = some 0 ∧ (fetching1.sub 1).completion = some 0 ∧ (fetching1.sub 1).occupancy = .fetching ∧
    NoAbortWaits fetching1 1 ∧ (descOf .send).dest ≠ (fetching1.port 0).config.station ∧
    ((known .suspect).healthEntry 0 36).map HealthEntry.state = some .suspect ∧
    ((known .barred).healthEntry 0 36).map HealthEntry.state = some .barred ∧
    (fetching1.healthEntry 0 36).map HealthEntry.state = none ∧ (idle5.state ≠ .off ∧ idle5.state ≠ .recovering) :=
  ⟨by decide +kernel, by decide +kernel, by decide +kernel, nofun, by decide +kernel, by decide +kernel,
    by decide +kernel, by decide +kernel, by decide⟩

/-- R45: the outcomes of first consideration. -/
theorem test_consideration :
    let run := fun s => after (.slotReadEnd 1 (.data (slotBytes 2 0))) s
    ((run (known .suspect)).execOf 1).map (·.2.limit) = some 1 ∧
    lastStatus (run (known .barred)) = some (.barred, 0) ∧
    lastStatus (run (fetching1 .active Port.reset)) = some (.portDown, 0) ∧
    ((run (fetching1 .active (idle5.toRecovering 0))).execOf 1).map (·.2.state) = some .held ∧
    lastStatus (run (fetching1 .active { idle5 with config := { idle5.config with station := 36 } })) =
      some (.badDescriptor, 0) := by decide +kernel

theorem witness_DescriptorLayoutsAndCodes :
    (∃ d, decodeXfer (slotBytes 5 0) = some d) ∧ (byteAt (slotBytes 0x10 0) 0x02).toNat = 0x10 ∧
    (byteAt (slotBytes 0x20 0) 0x02).toNat = 0x20 ∧ 0x20 < (byteAt (slotBytes 0x21 0) 0x02).toNat ∧
    (64 : Addr).toNat = 64 := ⟨⟨_, rfl⟩, by decide, by decide, by decide, by decide⟩

/-- 11.4: a SET_VECTOR and an ABORT, field by field. -/
theorem test_admin_descriptors :
    decodeAdmin ([1, 0, 0x14, 0, 3, 0xFF, 0, 0, 0xDD, 0xCC, 0xBB, 0xAA, 0, 0, 0, 0] ++ leBytes 8 (0x1000 : Addr) ++ zeros 40)
      = .setVector 3 true 0xAABBCCDD 0x1000 ∧
    decodeAdmin ([1, 0, 0x20, 0, 31, 0, 0x34, 0x12] ++ zeros 56) = .abort 31 0x1234 := by decide

theorem witness_CreateSubmissionRingChecks :
    Carries (carrying (.unknown 0x21)) 7 (.unknown 0x21) ∧
    Carries (carrying (.createSubmissionRing 31 3 7 0 8 64)) 7 (.createSubmissionRing 31 3 7 0 8 64) ∧
    (31 : SubId).val = 31 ∧ ((carrying (.createSubmissionRing 31 3 7 0 8 64)).sub 31).state = .absent ∧
    ((carrying (.createSubmissionRing 31 3 7 0 8 64)).cpl 0).state = .active ∧
    ((carrying (.createSubmissionRing 31 3 7 1 8 64)).cpl 1).state = .absent ∧ RingPlace 8 64 ∧ ¬ RingPlace 8 63 ∧
    ((carrying (.createSubmissionRing 1 3 7 0 8 64) (staged .send .held)).sub 1).state ≠ .absent :=
  ⟨by decide +kernel, by decide +kernel, by decide, by decide +kernel, by decide +kernel, by decide +kernel, place8,
    not_place63, by decide +kernel⟩

theorem test_create_submission_ring :
    lastStatus (after .createSubmissionRing (carrying (.createSubmissionRing 31 3 7 0 8 64))) = some (.success, 31) ∧
    lastStatus (after .createSubmissionRing (carrying (.createSubmissionRing 31 4 7 0 8 64))) = some (.badParameter, 0) ∧
    lastStatus (after .createSubmissionRing (carrying (.createSubmissionRing 1 9 9 9 9 9) (staged .send .held))) =
      some (.inUse, 0) ∧
    lastStatus (after .unknownCommand (carrying (.unknown 0x21))) = some (.badCommand, 0) := by decide +kernel

/-- Ring 0 carries a deletion or an ABORT of ring 1, which has staged a descriptor. -/
def against (cmd : AdminCmd) (kind : XferKind) (q : ExecState) : State := carrying cmd (staged kind q)

theorem witness_DeleteSubmissionRingDrains :
    Carries (carrying (.deleteSubmissionRing 31)) 7 (.deleteSubmissionRing 31) ∧
    ((carrying (.deleteSubmissionRing 31)).sub 31).state = .absent ∧
    ((carrying (.deleteSubmissionRing 1) posted1).sub 1).occupancy = .empty ∧
    ((carrying (.deleteSubmissionRing 1) (fetching1 .faulted)).sub 1).state = .faulted ∧
    ((carrying (.deleteSubmissionRing 1) fetching1).sub 1).occupancy = .fetching ∧
    (∃ xe, (against (.deleteSubmissionRing 1) .send .held).execOf 1 = some xe ∧ xe.2.state = .held) ∧
    (∃ xe, (against (.deleteSubmissionRing 1) .query .storing).execOf 1 = some xe ∧ xe.2.state = .storing) ∧
    ((against (.deleteSubmissionRing 1) .send .held).sub 1).port = some 0 ∧
    ((against (.deleteSubmissionRing 1) .send .held).sub 1).completion = some 0 :=
  ⟨by decide +kernel, by decide +kernel, by decide +kernel, by decide +kernel, by decide +kernel, ⟨_, rfl, rfl⟩,
    ⟨_, rfl, rfl⟩, by decide +kernel, by decide +kernel⟩

/-- Ring 0 carries a deletion or an ABORT of ring 1, whose attempt is at a position of its frame. -/
def againstAttempt (cmd : AdminCmd) (position : Position) : State := carrying cmd (initiating5 .query (sends position))

/-- Ring 0 carries a deletion or an ABORT of ring 1, which has staged an ANSWER. -/
def againstAnswer (cmd : AdminCmd) (x : Port := idle5) : State :=
  carrying cmd ((running.setPort 0 x).setSub 1 (holding (descOf .answer) none))

/-- Port 0's window has latched ring 1's ANSWER. -/
def latched5 : Port := { idle5 with window := .replying query8 .decline 1 }

theorem witness_DeleteSubmissionRingDrains_in_attempt_and_answer :
    (let s := againstAttempt (.deleteSubmissionRing 1)
     Carries (s (.byte 0)) 7 (.deleteSubmissionRing 1) ∧ (∃ xe, (s (.byte 0)).execOf 1 = some xe ∧ xe.2.state = .inAttempt) ∧
     ((s (.byte 0)).sub 1).state = .active ∧ ((s (.byte 0)).sub 1).port = some 0 ∧
     ((s (.byte 0)).port 0).frame = some (sends (.byte 0)) ∧ (∀ n, (sends (.byte 0)).position ≠ .replySlot n) ∧
     ((s (.replySlot 1)).port 0).frame = some (sends (.replySlot 1)) ∧ (sends (.replySlot 1)).turn = some 1) ∧
    (let s := againstAnswer (.deleteSubmissionRing 1)
     (∃ x, s.stagedOf 1 = some x ∧ x.exec = none) ∧ (s.sub 1).completion = some 0 ∧ s.latched 1 = false ∧
     (againstAnswer (.deleteSubmissionRing 1) latched5).latched 1 = true) :=
  ⟨⟨by decide +kernel, ⟨_, rfl, rfl⟩, by decide +kernel, by decide +kernel, by decide +kernel, nofun, by decide +kernel, rfl⟩,
    ⟨_, rfl, rfl⟩, by decide +kernel, by decide +kernel, by decide +kernel⟩

/-- R138, R64, R66: what a deletion finds in an attempt or in an answer window. -/
theorem test_delete_pending_abort :
    let del := fun b s => after (.deleteSubmissionRing b) s
    (del false (againstAttempt (.deleteSubmissionRing 1) (.replySlot 1))).abortPending 1 = true ∧
    ((del false (againstAttempt (.deleteSubmissionRing 1) (.replySlot 1))).port 0).frame.map (·.refusing) = some true ∧
    ((del true (againstAttempt (.deleteSubmissionRing 1) (.replySlot 1))).port 0).frame.map (·.refusing) = some false ∧
    (del false (againstAnswer (.deleteSubmissionRing 1) latched5)).abortPending 1 = true ∧
    lastStatus (del false (againstAnswer (.deleteSubmissionRing 1))) = some (.aborted, 0) := by decide +kernel

/-- R138: the descriptor that a deletion finds ELIGIBLE completes ABORTED, and the ring is DRAINING. -/
theorem test_delete_submission_ring :
    let s := after (.deleteSubmissionRing false) (against (.deleteSubmissionRing 1) .send .eligible)
    lastStatus s = some (.aborted, 0) ∧ (s.sub 1).state = .draining ∧ s.admin = .deletingSub 1 ∧
    lastStatus (after (.deleteSubmissionRing false) (carrying (.deleteSubmissionRing 1) posted1)) = some (.success, 0) := by
  decide +kernel

theorem witness_AbortByWhatItFinds :
    Carries (against (.abort 1 3) .send .held) 7 (.abort 1 3) ∧ (carrying (.abort 1 3) posted1).stagedOf 1 = none ∧
    (∃ x, (against (.abort 1 3) .send .held).stagedOf 1 = some x ∧ x.desc.tag = 3 ∧ x.desc.tag ≠ 4) ∧
    (∃ e, (against (.abort 1 3) .query .storing).execOf 1 = some e ∧ e.2.state = .storing) ∧
    (∃ e, (against (.abort 1 3) .query .inAttempt).execOf 1 = some e ∧ e.2.state = .inAttempt) ∧
    (∀ n, ((against (.abort 1 3) .query .inAttempt).port 0).frame.map (·.position) ≠ some (.replySlot n)) ∧
    (let s := (carrying (.abort 1 3) posted1).setSub 1 (holding (descOf .answer) none)
     (s.stagedOf 1).map (·.exec) = some none ∧ s.latched 1 = false ∧
     (s.setPort 0 { idle5 with window := .replying query8 .decline 1 }).latched 1 = true) :=
  ⟨by decide +kernel, by decide +kernel, ⟨_, rfl, rfl, by decide⟩, ⟨_, rfl, rfl⟩, ⟨_, rfl, rfl⟩, nofun,
    by decide +kernel⟩

theorem witness_AbortByWhatItFinds_in_slot_and_waiting :
    (let s := againstAttempt (.abort 1 3) (.replySlot 1)
     Carries s 7 (.abort 1 3) ∧ (∃ xe, s.execOf 1 = some xe ∧ xe.2.state = .inAttempt) ∧
     (s.port 0).frame = some (sends (.replySlot 1)) ∧ (sends (.replySlot 1)).turn = some 1) ∧
    AbortWaits (abortWaiting (staged .send .eligible)) 1 (some (7, .success)) ∧
    ((abortWaiting (staged .send .eligible)).sub 1).completion = some 0 ∧
    ((abortWaiting (staged .send .eligible)).sub 1).occupancy = .staged :=
  ⟨⟨by decide +kernel, ⟨_, rfl, rfl⟩, by decide +kernel, rfl⟩,
    ⟨by decide, by decide +kernel, by decide +kernel, ⟨_, rfl⟩, by decide +kernel⟩, by decide +kernel, by decide +kernel⟩

/-- R67: the ABORT completes after the descriptor that it waits for. -/
theorem test_waiting_abort :
    let s := (abortWaiting (staged .send .inAttempt (inFrame .initiating (sends .closing)))).setSub 1
      { holding (descOf .send) (some (newRecord .inAttempt 2)) with abortPending := true }
    ((after (.closing 0) s).cpl 0).queue.map (fun e => (e.ring, e.status)) = [(1, .aborted), (0, .success)] ∧
    (after (.closing 0) s).admin = .idle := by decide +kernel

/-- R63, R67: the descriptor completes ABORTED before the ABORT completes SUCCESS; one in an attempt is waited for; one
that is STORING makes the ABORT end NOT_FOUND. -/
theorem test_abort :
    let s := after (.abort false) (against (.abort 1 3) .send .eligible)
    (s.cpl 0).queue.map (·.status) = [.aborted, .success] ∧
    (after (.abort false) (against (.abort 1 3) .query .inAttempt)).abortPending 1 = true ∧
    (after (.abort false) (against (.abort 1 3) .query .storing)).admin = .aborting 1 .notFound ∧
    lastStatus (after (.abort false) (against (.abort 1 4) .send .eligible)) = some (.notFound, 0) := by decide +kernel

/-- Ring 1 stores the reply of station 36, whose number port 0 has since been given. -/
def own36 : State :=
  { (running.setPort 0 { idle5 with config := { PortConfig.reset with station := 36 } }).setSub 1
      (holding (descOf .query) (some { newRecord .storing 2 with lastResult := some .success })) with
    health := [{ port := 0, station := 36, state := .suspect, failed := 2 }] }

theorem witness_DeadlinesAndStoresByState :
    let s := fun q => ({ staged .query q with timeBase := micros 1000 } : State)
    (s .held).live = true ∧ ((s .held).sub 1).port = some 0 ∧ ((s .held).sub 1).completion = some 0 ∧
    NoAbortWaits (s .held) 1 ∧
    (∃ xe, (s .held).execOf 1 = some xe ∧ xe.2.state = .held ∧ xe.1.desc.deadline ≠ 0 ∧
      xe.2.deadlinePassed = false ∧ (s .held).timeBase = xe.1.time + micros (1000 * xe.1.desc.deadline)) ∧
    (∃ xe, (s .inAttempt).execOf 1 = some xe ∧ xe.2.state = .inAttempt) ∧
    (∃ xe, (s .storing).execOf 1 = some xe ∧ xe.2.state = .storing ∧ xe.1.desc.kind = .query) ∧
    (running.setSub 1
      (holding (descOf .query) (some { newRecord .storing 2 with lastResult := some .truncated }))).execOf 1 =
      some ({ desc := descOf .query, payload := [0xA1, 0xA2], time := 0,
              exec := some { newRecord .storing 2 with lastResult := some .truncated } },
            { newRecord .storing 2 with lastResult := some .truncated }) :=
  ⟨by decide +kernel, by decide +kernel, by decide +kernel, nofun,
    ⟨_, rfl, rfl, by decide, rfl, by decide +kernel⟩, ⟨_, rfl, rfl⟩, ⟨_, rfl, rfl, rfl⟩, by decide +kernel⟩

theorem witness_DeadlinesAndStoresByState_abort_waiting :
    let s := abortWaiting (staged .query .storing)
    s.live = true ∧ (∃ xe, s.execOf 1 = some xe ∧ xe.2.state = .storing ∧ xe.1.desc.kind = .query) ∧
    AbortWaits s 1 (some (7, .success)) ∧ s.healthEntry 0 36 = none ∧
    ({ s with health := [{ port := 0, station := 36, state := .suspect, failed := 2 }] } : State).healthEntry 0 36 ≠ none ∧
    (s.port 0).config.station ≠ 36 ∧ (own36.port 0).config.station = (descOf .query).dest ∧
    AbortWaits (abortWaiting (staged .query .inAttempt)) 1 (some (7, .success)) :=
  ⟨by decide +kernel, ⟨_, rfl, rfl, rfl⟩, ⟨by decide, by decide +kernel, by decide +kernel, ⟨_, rfl⟩, by decide +kernel⟩,
    by decide +kernel, by decide +kernel, by decide +kernel, by decide +kernel,
    ⟨by decide, by decide +kernel, by decide +kernel, ⟨_, rfl⟩, by decide +kernel⟩⟩

/-- R76: the entry of the port's own station is not updated at the end of the store. -/
theorem test_own_station_is_not_updated :
    let s := after (.replyStoreEnd 1 .ok) own36
    lastStatus s = some (.success, 0) ∧ s.health = own36.health ∧
    (after (.replyStoreEnd 1 .ok) (own36.setPort 0 idle5)).health.map (·.failed) = [0] := by decide +kernel

/-- R58, R62: the deadline of an ELIGIBLE descriptor; a store that faults. -/
theorem test_deadline_and_store :
    lastStatus (after (.deadlineExpiry 1) (staged .send .eligible)) = some (.expired, 0) ∧
    (after (.deadlineExpiry 1) (staged .send .eligible)).timeBase = 1000 ∧
    lastStatus (after (.replyStoreEnd 1 .fault) (staged .query .storing)) = some (.storeFault, 0) := by decide +kernel

/-! ### Completion rings, coalescing and vectors -/

theorem witness_CompletionWriteStartFixesRecord :
    let s := writing.setCpl 0 { writing.cpl 0 with writing := none }
    s.live = true ∧ (∃ e rest, (s.cpl 0).queue = e :: rest) ∧ (s.cpl 0).writing = none :=
  ⟨by decide +kernel, ⟨_, _, rfl⟩, rfl⟩

/-- 11.6: a FETCH_FAULT record of ring 9 at slot 7 of a ring whose phase is 1. -/
theorem test_completion_write_start :
    let e : CplEntry := { plainEntry running 9 0 .fetchFault with tagAbsent := true, release := 0x102 }
    let s := running.setCpl 0 { writing.cpl 0 with queue := [e], writing := none }
    ((after (.completionWriteStart 0) { s with timeBase := 0x04030201 }).cpl 0).writing =
      some
        { address := 8192 + 32 * 7,
          bytes := [0, 0, 15, 9, 2, 1, 0, 0, 0, 0, 0, 0, 1, 2, 3, 4] ++ zeros 15 ++ [3] } := by decide +kernel

/-- The deletion of ring 1 waits for its last record. -/
def deleting1 : State := inPhase (.deletingSub 1) (.deleteSubmissionRing 1) writing

theorem witness_CompletionWriteEndReleasesRing :
    writing.engine = .running ∧ (∃ e rest, (writing.cpl 0).queue = e :: rest ∧ writing.admin ≠ .deletingSub e.ring ∧
      (writing.sub e.ring).state ≠ .draining) ∧ (∃ w, (writing.cpl 0).writing = some w) ∧
    (∃ e rest, (deleting1.cpl 0).queue = e :: rest ∧ deleting1.admin = .deletingSub e.ring ∧ e.ring ≠ 0) ∧
    (deleting1.sub 0).occupancy = .staged ∧ (deleting1.sub 0).staged = some (.admin 7 (.deleteSubmissionRing 1)) ∧
    (deleting1.sub 0).completion = some 0 :=
  ⟨by decide +kernel, ⟨_, _, rfl, by decide +kernel, by decide +kernel⟩, ⟨_, rfl⟩,
    ⟨_, _, rfl, by decide +kernel, by decide +kernel⟩, by decide +kernel, by decide +kernel, by decide +kernel⟩

/-- The end of a record's write, in EngineCommandsByState: a record is being written. -/
theorem witness_EngineCommandsByState_record :
    writing.engine = .running ∧ (writing.cpl 0).queue ≠ [] ∧ (writing.cpl 0).writing ≠ none ∧
    exec (.completionWriteEnd 0 .ok) writing = .next (after (.completionWriteEnd 0 .ok) writing) :=
  ⟨rfl, by decide +kernel, by decide +kernel, rfl⟩

/-- R143: the write at slot 7 of 8 takes the tail to 0 and flips the phase; threshold 1 sends a message. -/
theorem test_completion_write_end :
    let s := after (.completionWriteEnd 0 .ok) writing
    (s.cpl 0).tail = 0 ∧ (s.cpl 0).phase = false ∧ (s.cpl 0).reserved = 0 ∧ (s.sub 1).occupancy = .empty ∧
    (s.vector 0).pending = true ∧
    (s.cpl 0).irq.state = .sent ∧ ((after (.completionWriteEnd 0 .ok) deleting1).sub 1).state = .absent ∧
    lastStatus (after (.completionWriteEnd 0 .ok) deleting1) = some (.success, 0) := by decide +kernel

/-- R148: with threshold 4 and delay 200 the first record starts the timer and sends nothing. -/
theorem test_first_record_starts_the_timer :
    let s := after (.completionWriteEnd 0 .ok) { writing { Irq.reset with threshold := 4, delay := 200 } with timeBase := 50 }
    (s.cpl 0).irq.state = .counting ∧ (s.cpl 0).irq.count = 1 ∧ (s.cpl 0).irq.timer = some 250 ∧
    (s.vector 0).pending = false := by decide +kernel

theorem witness_CoalescingDecidesMessages :
    let q : Irq := { Irq.reset with threshold := 4, state := .counting, count := 3, delay := 200, timer := some 250 }
    (q.state = .counting ∧ q.count + 1 = q.threshold ∧ Irq.reset.threshold = 1 ∧ Irq.reset.state = .armed) ∧
    (let s : State := { running.setCpl 0 { running.cpl 0 with irq := q } with timeBase := 250 }
     s.live = true ∧ s.timeBase = 250 ∧ (s.cpl 0).irq.state = .counting ∧ (s.cpl 0).irq.timer = some 250) ∧
    (let s : State := { receiving idle5 { RcvRing.reset with irq := q } with timeBase := 250 }
     (s.rcv 2).irq.state = .counting ∧ (s.rcv 2).irq.timer = some 250) := by decide +kernel

/-- R149: the timer sends one message, and the count starts again at 0. -/
theorem test_coalescing_timer :
    let q : Irq := { Irq.reset with threshold := 4, state := .counting, count := 3, delay := 200, timer := some 250 }
    let s := after (.coalescingTimer (.completion 0)) (running.setCpl 0 { running.cpl 0 with irq := q })
    (s.cpl 0).irq.state = .sent ∧ (s.cpl 0).irq.count = 0 ∧ (s.vector 0).pending = true := by decide +kernel

theorem witness_MessagesFollowVectors :
    let m : Message := { vector := 1, address := 4, data := 2 }
    (running.vector 1).masked = true ∧ ((running.setVector 1 { IrqVector.reset with masked := false }).vector 1).masked = false ∧
    ({ running with messages := [m] } : State).messages = [] ++ m :: [] ∧ running.live = true ∧
    Carries (carrying (.setVector 15 false 9 4)) 7 (.setVector 15 false 9 4) ∧ (15 : VecId).val = 15 ∧
    ((carrying (.setVector 15 true 9 4)).vector 15).pending = false ∧
    ((carrying (.setVector 1 false 9 4) (running.sendMessage 1)).vector 1).pending = true := by decide +kernel

/-- R151, R153: a message on a masked vector waits, and unmasking it sends it with the new address and data. -/
theorem test_set_vector_unmasks :
    (after .setVector (carrying (.setVector 1 false 9 4) (running.sendMessage 1))).messages =
      [{ vector := 1, address := 4, data := 9 }] ∧
    lastStatus (after .setVector (carrying (.setVector 1 false 9 2))) = some (.badParameter, 0) := by decide +kernel

/-- R152: a message write that faults. -/
theorem test_message_write_end :
    let s : State := { running with messages := [{ vector := 1, address := 4, data := 2 }] }
    (after (.messageWriteEnd 1 .ok) s).messages = [] ∧ (after (.messageWriteEnd 1 .fault) s).cause = .messageWriteFault ∧
    (after (.messageWriteEnd 2 .fault) s).engine = .running := by decide +kernel

theorem witness_CompletionRingsCreatedAndDeleted :
    Carries (carrying (.createCompletionRing 15 15 255 8 0 64)) 7 (.createCompletionRing 15 15 255 8 0 64) ∧
    (15 : CplId).val = 15 ∧ ((carrying (.createCompletionRing 15 15 255 8 0 64)).cpl 15).state = .absent ∧
    RingPlace 4096 64 ∧ ¬ RingPlace 9 64 ∧
    Carries (carrying (.deleteCompletionRing 1)) 7 (.deleteCompletionRing 1) ∧
    (let s := (carrying (.deleteCompletionRing 1)).setCpl 1 (CplRing.made 0 8 0 1 0)
     (s.cpl 1).state = .active ∧ (¬ ∃ r : SubId, (s.sub r).state ≠ .absent ∧ (s.sub r).completion = some 1) ∧
     ∃ r : SubId, ((s.setSub 3 { ring8 with completion := some 1 }).sub r).state ≠ .absent ∧
       ((s.setSub 3 { ring8 with completion := some 1 }).sub r).completion = some 1) :=
  ⟨by decide +kernel, by decide, by decide +kernel, place4096, not_place9, by decide +kernel, by decide +kernel⟩

theorem test_completion_rings :
    lastStatus (after .createCompletionRing (carrying (.createCompletionRing 15 15 255 8 0 64))) = some (.success, 15) ∧
    lastStatus (after .createCompletionRing (carrying (.createCompletionRing 15 15 0 8 0 64))) = some (.badParameter, 0) ∧
    lastStatus (after .deleteCompletionRing (carrying (.deleteCompletionRing 1))) = some (.notFound, 0) ∧
    (let s := (carrying (.deleteCompletionRing 1)).setCpl 1 (CplRing.made 0 8 0 1 0)
     ((after .deleteCompletionRing s).cpl 1).state = .absent ∧
     lastStatus (after .deleteCompletionRing (s.setSub 3 { ring8 with completion := some 1 })) = some (.inUse, 0)) := by
  decide +kernel

/-! ### Receive rings -/

/-- A record of a frame with two bytes. -/
def record8 : RcvEntry :=
  { kind := .frame, port := 1, frameKind := .send, entry := 6, source := 0x109, channel := 8, length := 2, token := none,
    reason := none, slot := none, timestamp := 0x04030201, payload := [0xA1, 0xA2] }

/-- Receive ring 2 has a record at the head of its queue. -/
def received (w : Option DmaWrite) (closing : Bool := false) : State :=
  receiving idle5
    { RcvRing.reset with
      state := .active, closing, size := 8, tail := 7, consumer := 3, queue := [record8], writing := w, lost := 0x203,
      irq := { Irq.reset with threshold := 2 } }

/-- A write in flight. -/
def write0 : DmaWrite := { address := 0, bytes := [] }

theorem witness_ReceiveRecordsAreWritten :
    let s := inPhase (.deletingRcv 2) (.deleteReceiveRing 2) (received (some write0) true)
    (received none).live = true ∧ ((received none).rcv 2).queue = record8 :: [] ∧ ((received none).rcv 2).writing = none ∧
    ((received (some write0)).rcv 2).writing = some write0 ∧ ((received (some write0)).rcv 2).closing = false ∧
    (s.rcv 2).closing = true ∧ s.admin = .deletingRcv 2 ∧ (s.sub 0).occupancy = .staged ∧
    (s.sub 0).staged = some (.admin 7 (.deleteReceiveRing 2)) ∧ (s.sub 0).completion = some 0 := by decide +kernel

/-- 11.6: the bytes of a receive record; R163: it takes the lost count with it. -/
theorem test_receive_write_start :
    let s := after (.receiveWriteStart 2) (received none)
    (s.rcv 2).lost = 0 ∧
    (s.rcv 2).writing =
      some
        { address := 96 * 7,
          bytes := [1, 1, 2, 6, 9, 1, 8, 2, 0, 0, 0, 0, 3, 2, 0, 0, 1, 2, 3, 4] ++ zeros 11 ++ [1, 0xA1, 0xA2] ++ zeros 62 } := by
  decide +kernel

theorem test_receive_write_end :
    ((after (.receiveWriteEnd 2 .ok) (received (some write0))).rcv 2).tail = 0 ∧
    ((after (.receiveWriteEnd 2 .ok) (received (some write0))).rcv 2).phase = false ∧
    ((after (.receiveWriteEnd 2 .ok) (received (some write0))).rcv 2).irq.count = 1 ∧
    (after (.receiveWriteEnd 2 .fault) (received (some write0))).cause = .receiveWriteFault ∧
    (let s := inPhase (.deletingRcv 2) (.deleteReceiveRing 2) (received (some write0) true)
     ((after (.receiveWriteEnd 2 .ok) s).rcv 2).state = .absent ∧
     lastStatus (after (.receiveWriteEnd 2 .ok) s) = some (.success, 0)) := by decide +kernel

/-- A ring with six unconsumed records and one slot promised. -/
def full8 (policy : FullPolicy) : RcvRing :=
  { RcvRing.reset with state := .active, size := 8, tail := 6, held := 1, policy }

theorem witness_ClaimAtPostingAnswers :
    (let k := (receiving idle5).rcv 2
     k.state = .active ∧ k.closing = false ∧ k.unconsumed + (k.held + k.queue.length) < k.size - 1) ∧
    (let k := (receiving idle5 (full8 .discardWhenFull)).rcv 2
     k.state = .active ∧ k.size - 1 ≤ k.unconsumed + (k.held + k.queue.length) ∧ k.lost ≤ 65535) ∧
    (running.rcv 2).state = .absent := by decide +kernel

theorem test_claim_at_posting :
    (((receiving idle5 (full8 .refuseWhenFull)).claimAtPosting 2 record8).rcv 2).lost = 1 ∧
    (((receiving idle5).claimAtPosting 2 record8).rcv 2).queue = [record8] ∧
    ((receiving idle5 { full8 .refuseWhenFull with lost := 65535 }).claimAtPosting 2 record8).rcv 2 =
      { full8 .refuseWhenFull with lost := 65535 } := by decide +kernel

theorem witness_ReceiveRingsCreatedAndDeleted :
    Carries (carrying (.createReceiveRing 15 15 255 1 8 0 64)) 7 (.createReceiveRing 15 15 255 1 8 0 64) ∧
    (15 : RcvId).val = 15 ∧ ((carrying (.createReceiveRing 15 15 255 1 8 0 64)).rcv 15).state = .absent ∧
    RingPlace 8 64 ∧ ¬ RingPlace 8 63 ∧
    (let s := carrying (.deleteReceiveRing 2) (receiving idle5)
     Carries s 7 (.deleteReceiveRing 2) ∧ (s.rcv 2).state = .active ∧ (s.rcv 2).queue = [] ∧ (s.rcv 2).writing = none ∧
     (∀ i : MatchId, (s.entry i).valid = false) ∧ (∀ p, (s.port p).window.query = none) ∧
     ((s.setEntry 6 (entryFor .deliver)).entry 6).targetRing.toNat = 2 ∧
     ((s.setPort 0 { idle5 with window := .waiting query8 .empty 0 }).port 0).window.query = some query8) ∧
    ((carrying (.deleteReceiveRing 2) (received none)).rcv 2).queue ≠ [] :=
  ⟨by decide +kernel, by decide, by decide +kernel, place8, not_place63, by decide +kernel, by decide +kernel⟩

/-- R168: a service record that holds a reservation in ring 2, or that discards for it. -/
theorem witness_ReceiveRingsCreatedAndDeleted_service_records :
    let x := fun v => inFrame .serving (serves .send (.byte 0) v)
    (x { serviceOf .deliver with reservation := some 2 }).frame =
      some (serves .send (.byte 0) { serviceOf .deliver with reservation := some 2 }) ∧
    { serviceOf .deliver with reservation := some 2 }.reservation = some 2 ∧ (serviceOf .deliver).reservation ≠ some 2 ∧
    { serviceOf .deliver with discard := true }.discard = true ∧
    (∃ h, (serviceOf .deliver).hit = some h ∧ h.entry.targetRing.toNat % 16 = (2 : RcvId).val) ∧
    (∃ h, (serviceOf .deliver).hit = some h ∧ h.entry.targetRing.toNat % 16 ≠ (3 : RcvId).val) ∧
    idle5.frame.bind (·.service) = none := ⟨rfl, rfl, nofun, rfl, ⟨_, rfl, rfl⟩, ⟨_, rfl, by decide⟩, rfl⟩

theorem test_receive_rings :
    lastStatus (after .createReceiveRing (carrying (.createReceiveRing 15 15 255 1 8 0 64))) = some (.success, 15) ∧
    lastStatus (after .createReceiveRing (carrying (.createReceiveRing 15 15 255 2 8 0 64))) = some (.badParameter, 0) ∧
    (let s := carrying (.deleteReceiveRing 2) (receiving idle5)
     lastStatus (after .deleteReceiveRing s) = some (.success, 0) ∧
     lastStatus (after .deleteReceiveRing (s.setEntry 6 (entryFor .deliver))) = some (.inUse, 0)) ∧
    (after .deleteReceiveRing (carrying (.deleteReceiveRing 2) (received none))).admin = .deletingRcv 2 := by decide +kernel

/-! ### Administration of ports -/

theorem witness_SetPortReplacesConfiguration :
    Carries (carrying (.setPort 3 3 1022 10 65535 255 15 1)) 7 (.setPort 3 3 1022 10 65535 255 15 1) ∧
    (3 : PortId).val = 3 ∧ ((carrying (.setPort 3 3 1022 10 65535 255 15 1)).port 3).state = .off ∧
    Rate.k1000.bitTime = 8 / 2 ^ 3 ∧
    ((carrying (.setPort 0 3 1022 10 65535 255 15 1) (running.setPort 0 idle5)).port 0).state ≠ .off := by decide +kernel

theorem test_set_port :
    ((after .setPort (carrying (.setPort 3 3 1022 10 65535 255 15 1))).port 3).config.station = 1022 ∧
    lastStatus (after .setPort (carrying (.setPort 3 3 1023 10 65535 255 15 1))) = some (.badParameter, 0) ∧
    lastStatus (after .setPort (carrying (.setPort 0 9 9 9 9 9 9 9) (running.setPort 0 idle5))) = some (.portBusy, 0) := by
  decide +kernel

/-- Port 0 holds ring 2's query. -/
def holding5 : Port :=
  { inFrame .holding (serves .query .turnaround (serviceOf .defer)) with
    bckDriver := .drivenLow, bdaDriver := .drivenLow, silenceSince := none, window := .waiting query8 .decline 500 }

theorem witness_PortControlByState :
    Carries (carrying (.portControl 3 1)) 7 (.portControl 3 1) ∧ (3 : PortId).val = 3 ∧
    ((carrying (.portControl 3 1)).port 3).state = .off ∧
    Carries (carrying (.portControl 4 3)) 7 (.portControl 4 3) ∧
    ((carrying (.portControl 0 3) (running.setPort 0 idle5.toFaulted)).port 0).state = .faulted ∧
    Carries (carrying (.portControl (0 : PortId).val 2) (running.setPort 0 idle5)) 7 (.portControl 0 2) ∧
    (running.setPort 0 holding5).port 0 = holding5 ∧ holding5.state = .holding ∧
    holding5.window = .waiting query8 .decline 500 ∧
    holding5.frame = some (serves .query .turnaround (serviceOf .defer)) ∧
    (inFrame .serving (serves .query .turnaround (serviceOf .defer))).state = .serving := by decide +kernel

/-- Port 0 with a pending stop, which ring 0's STOP waits for. -/
def stopping5 (x : Port) : State :=
  inPhase (.stopping 0) (.portControl 0 2) ((staged .send .eligible).setPort 0 { x with stopPending := true })

theorem witness_PortControlByState_stop_pending :
    (let x := inFrame .initiating (sends .closing)
     let s := stopping5 x
     s.engine = .running ∧ (s.port 0).stopPending = true ∧ happensAt (.closing 0) = some 0 ∧
     ((after (.closing 0) (s.setPort 0 { s.port 0 with stopPending := false })).port 0).state = .idle ∧
     ((after (.hold 0 0) (s.setPort 0 { s.port 0 with stopPending := false })).port 0).state = .initiating) ∧
    (let f := { FrameRec.fresh with position := .header 3 }
     ((stopping5 (inFrame .arbitrating f)).port 0).state = .arbitrating ∧ f.turn = none ∧
     ((stopping5 (inFrame .arbitrating f)).port 0).frame = some f) ∧
    (let x := { inFrame .serving (serves .send (.byte 0) (serviceOf .deliver)) with bckLowSince := some 0 }
     let s : State := { stopping5 x with timeBase := 25000 }
     (s.port 0).bckLowSince = some 0 ∧ s.timeBase = 0 + BitVec.ofNat 32 (1000 * (s.port 0).config.stuckLimit) ∧
     (s.port 0).state = .serving) ∧
    ((stopping5 { idle5 with bdaLowSince := some 0 }).port 0).bdaLowSince = some 0 ∧
    ((stopping5 (inFrame .initiating (sends (.byte 0)))).port 0).frame = some (sends (.byte 0)) ∧
    (let x := (stopping5 (inFrame .arbitrating (sends (.header 0)))).port 0
     x.bckLowSince = none ∧ x.silenceSince = some 0 ∧ x.state = .arbitrating ∧ x.frame.bind (·.turn) = some 1) ∧
    ((sends (.header 0)).position = .header 0 ∧ (sends (.header 0)).turn = some 1 ∧
     ((stopping5 (inFrame .arbitrating (sends (.header 0)))).execOf 1).isSome = true ∧
     ((stopping5 (inFrame .arbitrating (sends (.header 0)))).port 0).frame = some (sends (.header 0))) := by
  decide +kernel

/-- R35: an initiator that has not lost goes on to INITIATING with the stop pending, and a receiver's judgement is OFF. -/
theorem test_pending_stop_at_the_header :
    (let x := (after (.headerJudgement 0 0) (stopping5 (inFrame .arbitrating (sends (.header 0))))).port 0
     x.state = .initiating ∧ x.stopPending = true ∧ x.frame.map (·.position) = some .channelByte) ∧
    ((after (.headerJudgement 0 0) (stopping5 (inFrame .arbitrating { FrameRec.fresh with position := .header 3 }))).port 0).state =
      .off := by decide +kernel

/-- R35, R47: the closing of the frame takes the port to OFF; R134: in increasing ring id, though ring 2's descriptor is the
attempt that ends, and the STOP last; so too where a stuck line ends it. -/
theorem test_pending_stop :
    let s := (stopping5 (inFrame .initiating { sends .closing with turn := some 2, result := some .success })).setSub 2
      (holding (descOf .send) (some (newRecord .inAttempt 2)))
    let t := after (.closing 0) s
    let done := fun u : State => (u.cpl 0).queue.map fun e => (e.ring, e.status)
    (t.port 0).state = .off ∧ (t.port 0).stopPending = false ∧ t.admin = .idle ∧
    done t = [(1, .portDown), (2, .success), (0, .success)] ∧
    done (after (.stuckCondition 0 .bck) s) = [(1, .portDown), (2, .busStuck), (0, .success)] ∧
    ((after (.headerJudgement 0 (buildHeader .send 5 9))
      (stopping5 (inFrame .observing FrameRec.fresh))).port 0).state = .off := by decide +kernel

/-- R24, R34, R35, R47: START and STOP. -/
theorem test_start_and_stop :
    ((after (.portControlStart .recessive .recessive) (carrying (.portControl 3 1))).port 3).state = .idle ∧
    ((after (.portControlStart .recessive .recessive) (carrying (.portControl 3 1))).port 3).busView = .busy ∧
    ((after (.portControlStart .recessive .dominant) (carrying (.portControl 3 1))).port 3).bdaLowSince = some 0 ∧
    ((after (.portControlStart .recessive .dominant) (carrying (.portControl 3 1))).port 3).idleSince = none ∧
    lastStatus (after (.portControlStart .recessive .recessive) (carrying (.portControl 4 1))) = some (.badParameter, 0) ∧
    (let s := after (.portControlStop .recessive) (against (.portControl 0 2) .send .eligible)
     (s.port 0).state = .off ∧ (s.cpl 0).queue.map (·.status) = [.portDown, .success]) := by decide +kernel

/-- R120: a STOP during a hold gives the expiry answer and posts QUERY_CLOSED with PORT_STOPPED. -/
theorem test_stop_while_holding :
    let s := after (.portControlStop .recessive) (carrying (.portControl 0 2) (receiving holding5))
    (s.port 0).state = .serving ∧ (s.port 0).bckDriver = .released ∧ s.admin = .stopping 0 ∧
    (s.rcv 2).queue.map (·.reason) = [some .portStopped] := by decide +kernel

/-- R39: RECOVER on a FAULTED port. -/
theorem test_recover :
    let s := after .portControlRecover (carrying (.portControl 0 3) (running.setPort 0 idle5.toFaulted))
    (s.port 0).state = .recovering ∧ (s.port 0).stats.stuckEvents = 1 ∧ s.admin = .recovering 0 ∧
    (s.port 0).recovery = some { phase := .clocking, pulses := 0, waitSince := 4 } ∧
    (let x := (after .portControlRecover
        (carrying (.portControl 0 3) (running.setPort 0 { idle5.toFaulted with bckLowSince := some 7 }))).port 0
     x.bckLowSince = some 7 ∧ x.recovery = some { phase := .waiting, pulses := 0, waitSince := 0 }) ∧
    lastStatus (after .portControlRecover (carrying (.portControl 0 3) (running.setPort 0 idle5))) = some (.portBusy, 0) := by
  decide +kernel

/-- Port 0 recovers, in a phase, after some pulses. -/
def recovering5 (phase : RecoveryPhase) (pulses : Nat) (idle : Option Time := none) : Port :=
  { idle5.toRecovering 0 with
    recovery := some { phase, pulses, waitSince := 0 }, idleSince := idle, bckLowSince := if idle.isSome then none else some 0 }

/-- Ring 1's descriptor is HELD at a recovering port, and the health table knows its target. -/
def heldFor (q : HealthState) (probe : Bool := false) : State :=
  { (staged .send .held (recovering5 .gap 1 (some 0))).setSub 1
      (holding { descOf .send with probe } (some (newRecord .held 2))) with
    health := [{ port := 0, station := 36, state := q, failed := 2 }] }

theorem witness_WaitingDescriptorsFollowPort :
    NoAbortWaits (staged .send .held) 1 ∧ (staged .send .held).inState 0 1 .held = true ∧
    (staged .send .eligible).inState 0 1 .eligible = true ∧ (∃ xe, (staged .send .held).execOf 1 = some xe) ∧
    ((staged .send .held).sub 1).completion = some 0 ∧ (staged .send .held).inState 0 2 .held = false ∧
    (∀ r, ((staged .send .held).sub r).occupancy ≠ .empty → ((staged .send .held).sub r).completion ≠ none) ∧
    ((heldFor .suspect).healthEntry 0 36).map HealthEntry.state = some .suspect ∧
    ((heldFor .barred).healthEntry 0 36).map HealthEntry.state = some .barred ∧
    (heldFor .barred).inState 0 1 .held = true ∧ ((staged .send .held).healthEntry 0 36).map HealthEntry.state = none ∧
    (let s : State := { heldFor .barred with timeBase := 64 }
     Plain s 0 ∧ (s.port 0).state = .recovering ∧
     (s.port 0).recovery = some { phase := .gap, pulses := 1, waitSince := 0 } ∧ (s.port 0).idleSince = some 0 ∧
     s.timeBase = 0 + BitVec.ofNat 32 (8 * (s.port 0).config.rate.bitTime)) ∧
    (heldFor .barred).admin ≠ .recovering 0 ∧ ({ heldFor .barred with admin := .recovering 1 } : State).admin ≠ .recovering 0 :=
  ⟨nofun, by decide +kernel, by decide +kernel, ⟨_, rfl⟩, by decide +kernel, by decide +kernel, by decide +kernel,
    by decide +kernel, by decide +kernel, by decide +kernel, by decide +kernel, by decide +kernel, nofun, nofun⟩

/-- R47: both waiting descriptors of the port, and they alone, join the queue in increasing ring id; their rings complete. -/
theorem test_port_down :
    let s := ((staged .send .held).setSub 3 (holding (descOf .notice) (some (newRecord .eligible 2)))).setSub 4
      (holding (descOf .send) (some (newRecord .inAttempt 2)))
    let t := s.portDown 0
    (t.cpl 0).queue.map (fun e => (e.ring, e.status)) = [(1, .portDown), (3, .portDown)] ∧
    t.sub 3 = completing (s.sub 3) ∧ t.sub 4 = s.sub 4 := by decide +kernel

/-- R46, R45: the checks of a HELD descriptor when recovery succeeds. -/
theorem test_recheck :
    ((after (.idleGap 0) (heldFor .suspect)).execOf 1).map (fun xe => (xe.2.state, xe.2.limit)) = some (.eligible, 1) ∧
    lastStatus (after (.idleGap 0) (heldFor .barred)) = some (.barred, 0) ∧
    ((after (.opening 0) (heldFor .barred true)).execOf 1).map (fun xe => (xe.2.state, xe.2.limit)) = some (.eligible, 2) := by
  decide +kernel

theorem witness_PortStatisticsRead :
    let s := inPhase (.statsWrite 0 true Stats.reset write0) (.readPortStats 0 true 4)
    Carries (carrying (.readPortStats 3 true 4)) 7 (.readPortStats 3 true 4) ∧ (3 : PortId).val = 3 ∧
    (4 : Addr).toNat % 4 = 0 ∧ s.live = true ∧ s.admin = .statsWrite 0 true Stats.reset write0 ∧
    (s.sub 0).occupancy = .staged ∧ (s.sub 0).staged = some (.admin 7 (.readPortStats 0 true 4)) ∧
    (s.sub 0).completion = some 0 := by decide +kernel

/-- R41: what was counted after the snapshot stays. -/
theorem test_read_port_stats :
    let s := (carrying (.readPortStats 0 true 4)).setPort 0 { idle5 with stats := { Stats.reset with clashes := 7 } }
    let t := (after .readPortStats s).count 0 .clashes
    ((after (.statsWriteEnd .ok) t).port 0).stats.clashes = 1 ∧
    lastStatus (after (.statsWriteEnd .fault) t) = some (.storeFault, 0) ∧
    ((after (.statsWriteEnd .fault) t).port 0).stats.clashes = 8 := by decide +kernel

/-! ### Match table, reply store, health table -/

theorem witness_MatchEntriesSetAndCleared :
    let cmd : AdminCmd := .setMatch 31 4 1 2 0 0 2 9 9 false 1 1023 1023
    Carries (carrying cmd (receiving idle5)) 7 cmd ∧ (31 : MatchId).val = 31 ∧ Action.ofCode 4 = some .defer ∧
    ((carrying cmd (receiving idle5)).rcv 2).state = .active ∧
    Carries (carrying (.clearMatch 31)) 7 (.clearMatch 31) := by decide +kernel

theorem test_set_match :
    (let cmd : AdminCmd := .setMatch 31 4 1 2 0 0 2 9 9 false 1 1023 1023
     ((after .setMatch (carrying cmd (receiving idle5))).entry 31).action = some .defer ∧
     lastStatus (after .setMatch (carrying cmd)) = some (.badParameter, 0)) ∧
    lastStatus (after .setMatch (carrying (.setMatch 31 2 1 1 0 0 0 0 0 false 0 0 0))) = some (.badParameter, 0) ∧
    lastStatus (after .setMatch (carrying (.setMatch 31 5 1 7 0 0 99 99 99 true 99 0 0))) = some (.success, 0) ∧
    ((after .clearMatch (carrying (.clearMatch 6) (running.setEntry 6 (entryFor .refuse)))).entry 6).valid = false := by
  decide +kernel

theorem witness_ReplySlotsSetAndCleared :
    let s := inPhase (.replyRead 31 2 true 64) (.setReply 31 2 true 64)
    Carries (carrying (.setReply 31 64 true 64)) 7 (.setReply 31 64 true 64) ∧ (31 : SlotId).val = 31 ∧ s.live = true ∧
    s.admin = .replyRead 31 2 true 64 ∧ (s.sub 0).occupancy = .staged ∧
    (s.sub 0).staged = some (.admin 7 (.setReply 31 2 true 64)) ∧ (s.sub 0).completion = some 0 ∧
    ([1, 2] : List Byte).length = 2 ∧ Carries (carrying (.clearReply 31)) 7 (.clearReply 31) := by decide +kernel

theorem test_set_reply :
    (after .setReply (carrying (.setReply 31 0 true 64))).reply 31 = { loaded := true, data := [], oneShot := true } ∧
    (after .setReply (carrying (.setReply 31 64 true 64))).admin = .replyRead 31 64 true 64 ∧
    lastStatus (after .setReply (carrying (.setReply 31 65 true 64))) = some (.badParameter, 0) ∧
    (let s := inPhase (.replyRead 31 2 true 64) (.setReply 31 2 true 64)
     ((after (.setReplyReadEnd (.data [1, 2])) s).reply 31).data = [1, 2] ∧
     lastStatus (after (.setReplyReadEnd .fault) s) = some (.fetchFault, 0)) ∧
    ((after .clearReply (carrying (.clearReply 4)
      (running.setReply 4 { loaded := true, data := [1], oneShot := true }))).reply 4).loaded = false := by decide +kernel

/-- A health entry. -/
def healthOf (p : PortId) (st : Station) (q : HealthState) (n : Nat) : HealthEntry :=
  { port := p, station := st, state := q, failed := n }

theorem witness_HealthTableClearedAndRead :
    let s := fun cmd => carrying cmd { running with health := [healthOf 0 36 .suspect 2] }
    let t := inPhase (.healthWrite 1 write0) (.readHealth 4)
    Carries (s (.clearHealth 0 1 36)) 7 (.clearHealth 0 1 36) ∧ (0 : PortId).val = 0 ∧
    (∃ e ∈ (s (.clearHealth 0 1 36)).health, e.port = 0 ∧ e.station.toNat = 36) ∧
    (∀ e ∈ (s (.clearHealth 0 1 36)).health, ¬ (e.port = 0 ∧ e.station.toNat = 1022)) ∧
    Carries (s (.readHealth 4)) 7 (.readHealth 4) ∧ (s (.readHealth 4)).health ≠ [] ∧ (carrying (.readHealth 4)).health = [] ∧
    (s (.readHealth 4)).health[0]? = some (healthOf 0 36 .suspect 2) ∧ t.live = true ∧ t.admin = .healthWrite 1 write0 ∧
    (t.sub 0).occupancy = .staged ∧ (t.sub 0).staged = some (.admin 7 (.readHealth 4)) ∧ (t.sub 0).completion = some 0 := by
  decide +kernel

theorem test_clear_and_read_health :
    let s := fun cmd => carrying cmd { running with health := [healthOf 0 0x136 .barred 15, healthOf 1 36 .good 0] }
    (after .clearHealth (s (.clearHealth 1 1 36))).health = [healthOf 0 0x136 .barred 15] ∧
    lastStatus (after .clearHealth (s (.clearHealth 2 1 36))) = some (.notFound, 0) ∧
    (after .readHealth (s (.readHealth 4))).admin =
      .healthWrite 2 { address := 4, bytes := [0x36, 1, 0, 0xF2, 36, 0, 1, 3] } ∧
    lastStatus (after (.healthWriteEnd .ok) (after .readHealth (s (.readHealth 4)))) = some (.success, 2) := by
  decide +kernel

/-- Chapter 4, the example after R73: the table's 64 entries. -/
def fullTable : List HealthEntry :=
  [healthOf 2 15 .barred 3, healthOf 0 7 .good 0, healthOf 3 200 .good 0] ++
    (List.range 61).map fun i => healthOf 2 (BitVec.ofNat 10 (300 + i)) .suspect 1

theorem witness_OutcomesUpdateHealthTable :
    HealthBounded { running with health := fullTable } ∧ fullTable.length = 64 ∧
    (∀ e ∈ fullTable, ¬ (e.port = 1 ∧ e.station = 31)) ∧
    fullTable = [healthOf 2 15 .barred 3] ++ healthOf 0 7 .good 0 :: fullTable.drop 2 ∧
    (∀ x ∈ [healthOf 2 15 .barred 3], x.state ≠ .good) ∧ ([] : List HealthEntry).length < 64 ∧
    HealthBounded { running with health := (List.range 64).map fun i => healthOf 2 (BitVec.ofNat 10 i) .suspect 1 } := by
  decide +kernel

/-- Chapter 4, the example after R73; R71: with threshold 3 the count goes from 2 to 3 and the entry is BARRED. -/
theorem test_health_outcomes :
    (({ running with health := fullTable } : State).targetFailure 1 31).health =
      [healthOf 2 15 .barred 3, healthOf 3 200 .good 0] ++ fullTable.drop 3 ++ [healthOf 1 31 .suspect 1] ∧
    (({ running with health := [healthOf 0 36 .suspect 2] } : State).targetFailure 0 36).health = [healthOf 0 36 .barred 3] ∧
    (({ running with health := [healthOf 0 36 .barred 15] } : State).targetFailure 0 36).health = [healthOf 0 36 .barred 15] ∧
    (({ running with health := [healthOf 0 36 .barred 15] } : State).targetSuccess 0 36).health = [healthOf 0 36 .good 0] := by
  decide +kernel

/-! ### The scheduler and the header -/

/-- Chapter 3, the example after R50: rings 2, 9 and 20 at priority 4 with position 9, and ring 14 at priority 1, the
eligible ones as listed. -/
def offering (rings : List SubId) : State :=
  (rings.foldl (fun s r =>
      s.setSub r { holding (descOf .send) (some (newRecord .eligible 2)) with priority := some (if r = 14 then 1 else 4) })
    (running.setPort 0 idle5)).setPosition 0 4 9

theorem test_scheduler_example :
    (offering [2, 9, 14, 20]).pick 0 = some 20 ∧
    ((offering [2, 9, 14]).setPosition 0 4 20).pick 0 = some 2 ∧
    ((offering [9, 14]).setPosition 0 4 2).pick 0 = some 9 ∧ (offering [14]).pick 0 = some 14 ∧
    (after (.schedulerChoice 0 true) (offering [2, 9, 14, 20])).position 0 4 = 20 := by decide +kernel

theorem witness_SchedulerPicksNextInTopPriority : (∃ r, (offering [2, 9, 14, 20]).pick 0 = some r) :=
  ⟨20, by decide +kernel⟩

/-- Ring 1's descriptor is in its turn, and the port sends the header. -/
def sending (kind : XferKind := .query) : State :=
  staged kind .inAttempt (inFrame .arbitrating (sends (.header 0)))

theorem witness_TurnRunsThroughHeader :
    (let s := staged .query .eligible
     s.engine = .running ∧ (s.port 0).state = .idle ∧ (s.port 0).busView = .free ∧ s.pick 0 = some 1 ∧
     (∃ xe, s.execOf 1 = some xe)) ∧
    running.pick 0 = none ∧
    (∃ xe, sending.execOf 1 = some xe) ∧ Plain sending 0 ∧ (sending.port 0).state = .arbitrating ∧
    (sending.port 0).frame = some (sends (.header 0)) ∧ ((sends (.header 0)).rxHeader).getMsbD 0 = true ∧
    (sending.sub 1).port = some 0 ∧ (sending.sub 1).completion = some 0 ∧ NoAbortWaits sending 1 :=
  ⟨by refine ⟨?_, ?_, ?_, ?_, ⟨_, rfl⟩⟩ <;> decide +kernel, by decide +kernel, ⟨_, rfl⟩, by decide +kernel,
    by decide +kernel, by decide +kernel, by decide +kernel, by decide +kernel, by decide +kernel, nofun⟩

/-- Port 0 has been given ring 1's descriptor and has not opened yet. -/
def choosing (kind : XferKind := .query) : State :=
  staged kind .inAttempt { idle5 with state := .arbitrating, frame := some (sends .opening) }

theorem witness_TurnRunsThroughHeader_opening :
    choosing.live = true ∧ (∃ xe, choosing.execOf 1 = some xe) ∧ (choosing.port 0).state = .arbitrating ∧
    (choosing.port 0).frame = some (sends .opening) ∧ Plain choosing 0 ∧ (choosing.sub 1).port = some 0 ∧
    (choosing.sub 1).completion = some 0 ∧ AbortWaits (abortWaiting choosing) 1 (some (7, .success)) ∧
    AbortWaits (abortWaiting sending) 1 (some (7, .success)) ∧ (running.port 0).state ≠ .arbitrating :=
  ⟨by decide +kernel, ⟨_, rfl⟩, by decide +kernel, by decide +kernel, by decide +kernel, by decide +kernel,
    by decide +kernel, ⟨by decide, by decide +kernel, by decide +kernel, ⟨_, rfl⟩, by decide +kernel⟩,
    ⟨by decide, by decide +kernel, by decide +kernel, ⟨_, rfl⟩, by decide +kernel⟩, by decide +kernel⟩

/-- R51, R59: another station's opening forestalls the chosen descriptor, which is ELIGIBLE again or EXPIRED; one row or two
for the choice and the opening lead to the same frame. -/
theorem test_choice_and_opening :
    let s := staged .query .eligible
    ((after (.schedulerChoice 0 false) s).port 0).stats.framesStarted = 0 ∧
    after (.schedulerChoice 0 true) (after (.schedulerChoice 0 false) s) = after (.schedulerChoice 0 true) s ∧
    ((after (.opening 0) choosing).port 0).state = .observing ∧
    ((after (.opening 0) choosing).execOf 1).map (·.2.state) = some .eligible ∧
    lastStatus (after (.opening 0) (after (.deadlineExpiry 1) choosing)) = some (.expired, 0) := by decide +kernel

/-- Chapter 1, the arbitration example: a SEND to station 40 against one to station 36 loses at the seventh destination
bit; the port keeps its own bits up to there, and goes on as a receiver. -/
theorem test_arbitration_loss :
    let f := { sends (.header 0) with rxHeader := buildHeader .send 40 5 }
    let s := after (.arbitrationLoss 0 8) (staged .send .inAttempt (inFrame .arbitrating f))
    (s.port 0).state = .arbitrating ∧ (s.port 0).frame.map (·.position) = some (.header 9) ∧
    (s.port 0).stats.arbitrationLost = 1 ∧ (s.execOf 1).map (fun xe => (xe.2.state, xe.2.losses)) = some (.eligible, 1) ∧
    (let t := after (.headerJudgement 0 (buildHeader .send 36 17)) s
     (t.port 0).state = .observing ∧ (t.port 0).frame.map (·.rxHeader) = some (buildHeader .send 36 17)) := by
  decide +kernel

theorem test_header_wins :
    ((after (.headerJudgement 0 0) sending).port 0).state = .initiating ∧
    ((after (.headerJudgement 0 0) sending).port 0).frame.map (·.rxHeader) = some (buildHeader .query 36 5) := by
  decide +kernel

theorem witness_HeadersRoundTripAndAreJudged :
    Header.checksRight (buildHeader .notice 1023 1022) = true ∧ Header.kind (buildHeader .notice 1023 1022) ≠ 0 ∧
    (1022 : Station) ≠ 1023 ∧ Header.checksRight 1 = false ∧ Header.kind 0 = 0 := by decide

/-- R9: the four judgements, and a header whose check bit is wrong. -/
theorem test_judgements :
    judge (buildHeader .query 5 9) 5 = .addressed .query ∧ judge (buildHeader .query 6 9) 5 = .other ∧
    judge (buildHeader .notice 1023 9) 5 = .broadcast ∧ judge (buildHeader .send 1023 9) 5 = .ignored ∧
    judge (buildHeader .send 5 1023) 5 = .ignored ∧ judge (buildHeader .send 5 9 ^^^ 2) 5 = .ignored ∧
    judge (buildHeader .notice 5 9) 5 = .addressed .notice := by decide

/-! ### Receivers up to the header slot -/

/-- Port 0 follows a frame in its header. -/
def observing5 (position : Position) : Port := inFrame .observing { FrameRec.fresh with position }

theorem witness_ReceiversJudgeHeaders :
    Plain (running.setPort 0 idle5) 0 ∧ ((running.setPort 0 idle5).port 0).state = .idle ∧
    Plain (running.setPort 0 (observing5 (.header 0))) 0 ∧
    ((running.setPort 0 (observing5 (.header 0))).port 0).frame = some FrameRec.fresh ∧
    (let h := fun wire => completeHeader FrameRec.fresh.rxHeader 0 wire
     judge (h (buildHeader .query 5 9)) 5 = .addressed .query ∧ judge (h (buildHeader .notice 1023 9)) 5 = .broadcast ∧
     judge (h 0) 5 = .ignored ∧ judge (h (buildHeader .send 6 9)) 5 = .other) ∧
    running.candidates 0 .notice 9 = [] ∧ (running.setEntry 6 (entryFor .deliver)).candidates 0 .notice 9 ≠ [] := by
  decide +kernel

/-- R5, R82, R85: an opening, and a header that addresses the port. -/
theorem test_receiver_up_to_the_header :
    ((after (.opening 0) (running.setPort 0 idle5)).port 0).state = .observing ∧
    (let s := (running.setPort 0 (observing5 (.header 0))).setEntry 6 (entryFor .deliver)
     let t := (s.setEntry 9 { entryFor .refuse with sourceMask := 0x3FF }).setEntry 2 (entryFor .refuse)
     ((after (.headerJudgement 0 (buildHeader .send 5 9)) t).port 0).state = .serving ∧
     (((after (.headerJudgement 0 (buildHeader .send 5 9)) t).port 0).service.map fun v => v.candidates.map (·.index)) =
       some [2, 6] ∧
     ((after (.headerJudgement 0 (buildHeader .notice 1023 9)) (s.setEntry 6 .reset)).port 0).state = .observing) := by
  decide +kernel

/-- Port 0 serves a frame of a kind, at a position, with a service record. -/
def serving5 (kind : FrameKind) (position : Position) (v : ServiceRec) : Port :=
  inFrame .serving (serves kind position v)

/-- The first candidate fails the channel test for channel 8, the second passes it. -/
def twoCandidates : ServiceRec :=
  { serviceOf .deliver with
    candidates :=
      [{ index := 1, entry := { entryFor .refuse with channelMask := 0xFF } }, { index := 6, entry := entryFor .deliver }] }

theorem witness_ChannelByteFindsHit :
    let v := { twoCandidates with candidates := twoCandidates.candidates.take 1 }
    Plain (running.setPort 0 (serving5 .send .channelByte twoCandidates)) 0 ∧
    ((running.setPort 0 (serving5 .send .channelByte twoCandidates)).port 0).frame =
      some (serves .send .channelByte twoCandidates) ∧
    twoCandidates.candidates = twoCandidates.candidates.take 1 ++ { index := 6, entry := entryFor .deliver } :: [] ∧
    (∀ b ∈ twoCandidates.candidates.take 1,
      ¬ (8 : Byte) &&& b.entry.channelMask = b.entry.channelValue &&& b.entry.channelMask) ∧
    (∀ c ∈ v.candidates, ¬ (8 : Byte) &&& c.entry.channelMask = c.entry.channelValue &&& c.entry.channelMask) ∧
    ((serves .send .channelByte twoCandidates).role ≠ .listener) ∧
    (inFrame .initiating (sends .channelByte)).state = .initiating ∧ (observing5 .lengthByte).state = .observing ∧
    (64 : Byte).toNat ≤ 64 := by decide +kernel

/-- Port 0 follows a frame from station 9 to station 6 whose length byte it has taken. -/
def observes5 (kind : FrameKind) (length : Byte) (position : Position) : State :=
  running.setPort 0
    (inFrame .observing
      { FrameRec.fresh with position, rxHeader := buildHeader kind 6 9, length := some length, replyLength := some 2 })

theorem witness_ChannelByteFindsHit_observer_and_initiator :
    (let f := fun position =>
       { FrameRec.fresh with
         position, rxHeader := buildHeader .query 6 9, length := some (1 : Byte), replyLength := some (2 : Byte) }
     ∀ position ∈ [Position.headerSlot, .byte 0, .byteSlot 0, .turnaround, .replyLength, .replyByte 0, .replySlot 0],
       Plain (observes5 .query 1 position) 0 ∧ ((observes5 .query 1 position).port 0).frame = some (f position) ∧
       ((observes5 .query 1 position).port 0).state = .observing ∧ Header.kind (f position).rxHeader ≠ 0) ∧
    (∃ y, (initiating5 .query (sends .lengthByte)).stagedOf 1 = some y) ∧
    Plain (initiating5 .query (sends .lengthByte)) 0 ∧ (sends .lengthByte).turn = some 1 :=
  ⟨by decide +kernel, ⟨_, rfl⟩, by decide +kernel, rfl⟩

/-- R2, R15, R16, R18: an observer follows the frame by its rows. -/
theorem test_observer_follows :
    let position := fun s : State => (s.port 0).frame.map (·.position)
    position (after (.acknowledgeSlot 0 .dominant .dominant) (observes5 .query 0 .headerSlot)) = some .turnaround ∧
    position (after (.acknowledgeSlot 0 .dominant .recessive) (observes5 .notice 1 .headerSlot)) = some (.byte 0) ∧
    position (after (.acknowledgeSlot 0 .recessive .recessive) (observes5 .send 1 .headerSlot)) = some .done ∧
    position (after (.acknowledgeSlot 0 .dominant .dominant) (observes5 .query 1 (.replySlot 0))) = some (.replyByte 1) ∧
    position (after (.replyLengthByte 0 65) (observes5 .query 1 .replyLength)) = some .done := by decide +kernel

/-- R86: the first entry that passes wins; a listener without a hit goes to OBSERVING. -/
theorem test_channel_byte :
    let v := { twoCandidates with candidates := twoCandidates.candidates.take 1 }
    (((after (.channelByte 0 8) (running.setPort 0 (serving5 .send .channelByte twoCandidates))).port 0).service.bind
      (·.hit)).map (·.index) = some 6 ∧
    (let f := { serves .notice .channelByte v with role := .listener }
     ((after (.channelByte 0 8) (running.setPort 0 (inFrame .serving f))).port 0).state = .observing) ∧
    ((after (.channelByte 0 8) (initiating5 .query (sends .channelByte))).port 0).bdaDriver = .drivenLow ∧
    ((after (.channelByte 0 8) (initiating5 .query (sends .channelByte))).port 0).frame.bind (·.channel) = some 0 := by
  decide +kernel

/-- Port 0 has taken its length byte. -/
def atLength (kind : FrameKind) (a : Action) : Port := serving5 kind .lengthByte (serviceOf a)

/-- A reply slot with a reply. -/
def loaded4 (oneShot : Bool) (x : Port) : State :=
  (receiving x).setReply 4 { loaded := true, data := [0xB1], oneShot }

theorem witness_HeaderVerdictFollowsHit :
    let s := receiving (atLength .send .deliver)
    let k := s.rcv 2
    let g := (receiving (atLength .send .deliver) (full8 .discardWhenFull)).rcv 2
    Plain s 0 ∧ (s.port 0).state = .serving ∧ (s.port 0).frame = some (serves .send .lengthByte (serviceOf .deliver)) ∧
    (64 : Byte).toNat ≤ 64 ∧ (serviceOf .deliver).hit = some { index := 6, entry := entryFor .deliver } ∧
    (2 : RcvId).val = (entryFor .deliver).targetRing.toNat ∧
    (k.state = .active ∧ k.closing = false ∧ k.unconsumed + (k.held + k.queue.length) < k.size - 1) ∧
    (g.state = .active ∧ g.closing = false ∧ g.size - 1 ≤ g.unconsumed + (g.held + g.queue.length) ∧
      g.policy = .discardWhenFull) ∧
    (running.rcv 2).state = .absent ∧ (s.port 0).window = .none ∧ (4 : SlotId).val = (entryFor .replySlot).slot.toNat ∧
    ((loaded4 true (atLength .query .replySlot)).reply 4).loaded = true ∧ (s.reply 4).loaded = false ∧
    (entryFor .replySlot).notifyRing = none ∧
    { entryFor .replySlot with notifyRing := some 2 }.notifyRing = some 2 ∧ (2 : RcvId).val = (2 : Byte).toNat := by
  decide +kernel

/-- R88, R90, R92, R105, R163: verdicts by the hit. -/
theorem test_header_verdicts :
    let verdict := fun s : State => ((after (.headerVerdict 0 1) s).port 0).service.bind (·.verdict)
    let deliver := atLength .send .deliver
    verdict (receiving deliver) = some .accept ∧
    ((after (.headerVerdict 0 1) (receiving deliver)).rcv 2).held = 1 ∧
    verdict (receiving deliver (full8 .refuseWhenFull)) = some .refuse ∧
    ((after (.headerVerdict 0 1) (receiving deliver (full8 .refuseWhenFull))).port 0).stats.inboundRefused = 1 ∧
    verdict (receiving deliver (full8 .discardWhenFull)) = some .accept ∧
    verdict (receiving (atLength .query .replySlot)) = some .refuse ∧
    verdict (loaded4 true (atLength .query .replySlot)) = some .accept ∧
    ((after (.headerVerdict 0 1) (loaded4 true (atLength .query .replySlot))).reply 4).loaded = false ∧
    (after (.headerVerdict 0 1) (loaded4 true (atLength .query .replySlot))).snapshot 0 =
      some { slot := 4, data := [0xB1] } ∧
    verdict (receiving { atLength .query .defer with window := .replying query8 .decline 1 }) = some .refuse ∧
    ((after (.headerVerdict 0 65) (receiving deliver)).port 0).stats.framesBroken = 1 := by decide +kernel

/-! ### The target side after the header slot -/

/-- A service record whose verdict was ACCEPT. -/
def accepted (a : Action) (res : Option RcvId := none) : ServiceRec :=
  { serviceOf a with verdict := some .accept, reservation := res }

/-- A receive ring with one reservation. -/
def reserved8 : RcvRing := { RcvRing.reset with state := .active, size := 8, held := 1 }

theorem witness_ServingPortTakesBytes :
    let s := receiving (serving5 .query (.byteSlot 0) (accepted .defer (some 2))) reserved8
    Plain s 0 ∧ (s.port 0).state = .serving ∧
    (s.port 0).frame = some (serves .query (.byteSlot 0) (accepted .defer (some 2))) ∧ 0 < (s.rcv 2).held ∧
    (accepted .defer (some 2)).expected ≤ 1 ∧ 0 < (accepted .defer (some 2)).expected ∧
    Header.frameKind (serves .query (.byteSlot 0) (accepted .defer (some 2))).rxHeader = .query ∧
    Header.frameKind (serves .send .headerSlot (accepted .deliver)).rxHeader = .send ∧
    (serves .send .headerSlot { serviceOf .refuse with verdict := some .refuse }).position = .headerSlot ∧
    (serves .send (.byte 0) (accepted .deliver)).position = .byte 0 ∧
    (serves .send .refused (accepted .deliver)).position = .refused ∧ (accepted .defer).reservation = none ∧
    (accepted .replySlot).hit.map (·.entry.action) = some (some .replySlot) := by decide +kernel

theorem witness_ServingPortTakesBytes_refused :
    let v := { serviceOf .refuse with verdict := some .refuse }
    let f := fun kind => { serves kind .headerSlot v with length := some (1 : Byte) }
    (f .send).position = .headerSlot ∧ v.expected = (1 : Byte).toNat ∧ Header.kind (f .send).rxHeader ≠ 0 ∧
    Header.frameKind (f .send).rxHeader = .send ∧ Header.frameKind (f .query).rxHeader = .query ∧
    Header.frameKind (f .notice).rxHeader = .notice ∧ 0 < (1 : Byte).toNat ∧ { v with expected := 0 }.expected = (0 : Byte).toNat ∧
    Plain (running.setPort 0 (inFrame .serving (f .send))) 0 := by decide +kernel

/-- R12, R30: a port that refused follows on where another station's ACCEPT lets the frame go on. -/
theorem test_refused_goes_on :
    let v := { serviceOf .refuse with verdict := some .refuse }
    let s := fun kind => running.setPort 0 (inFrame .serving { serves kind .headerSlot v with length := some 1 })
    ((after (.acknowledgeSlot 0 .dominant .dominant) (s .send)).port 0).state = .observing ∧
    ((after (.acknowledgeSlot 0 .dominant .dominant) (s .send)).port 0).frame.map (·.position) = some (.byte 0) ∧
    ((after (.acknowledgeSlot 0 .dominant .recessive) (s .send)).port 0).frame.map (·.position) = some .refused ∧
    ((after (.acknowledgeSlot 0 .dominant .recessive) (s .notice)).port 0).state = .observing := by decide +kernel

/-- R94; R92, R111, R112: the last request byte's slot leads to HOLDING, with token 7 and the next token 8; the timer is
the answer limit of 500 µs away. -/
theorem test_serving_port :
    (((after (.byteReceived 0 0xC1) (running.setPort 0 (serving5 .send (.byte 0) (accepted .deliver)))).port 0).service.map
      (·.received)) = some [0xC1] ∧
    (let x := { serving5 .query (.byteSlot 0) (accepted .defer (some 2)) with nextToken := 7 }
     let s := after (.acknowledgeSlot 0 .dominant .dominant) { receiving x reserved8 with timeBase := 40 }
     (s.port 0).state = .holding ∧ (s.port 0).nextToken = 8 ∧ (s.port 0).bckDriver = .drivenLow ∧
     (s.port 0).window =
       .waiting { token := 7, source := 9, channel := 8, length := 1, entry := 6, ring := 2 } .empty 540 ∧
     (s.rcv 2).held = 0 ∧ (s.rcv 2).queue.map (·.kind) = [.queryWaiting]) := by decide +kernel

/-- Port 0 sends a reply of two bytes to a held query. -/
def replying5 (position : Position) (w : Window := .none) : Port :=
  { inFrame .serving { serves .query position (accepted .defer) with reply := [0xA1, 0xA2] } with window := w }

/-- Ring 1 has staged an ANSWER with two bytes for token 9. -/
def answering (x : Port) (aborting : Bool := false) : State :=
  (receiving x).setSub 1 { holding (descOf .answer) none with abortPending := aborting }

theorem witness_ServingPortReplies :
    (let s := receiving (serving5 .query .turnaround { accepted .defer with turnaround := some .decline })
     Plain s 0 ∧ (s.port 0).state = .serving ∧ (serves .query .turnaround (accepted .defer)).position = .turnaround ∧
     (s.setSnapshot 0 (some { slot := 4, data := [1] })).snapshot 0 = some { slot := 4, data := [1] } ∧
     (s.port 0).window = .none) ∧
    (replying5 (.replySlot 0) (.replying query8 (.reply [0xA1, 0xA2]) 1)).window =
      .replying query8 (.reply [0xA1, 0xA2]) 1 ∧
    (replying5 (.replySlot 0)).frame.map (·.reply) = some [0xA1, 0xA2] ∧ 0 + 1 < ([0xA1, 0xA2] : List Byte).length ∧
    ([0xA1, 0xA2] : List Byte).length ≤ 1 + 1 ∧
    (answering (replying5 (.replySlot 0) (.replying query8 (.reply [0xA1, 0xA2]) 1))).abortPending 1 = false ∧
    (answering (replying5 (.replySlot 0) (.replying query8 (.reply [0xA1, 0xA2]) 1)) true).abortPending 1 = true ∧
    (replying5 .replyLength).frame.map (·.position) = some .replyLength ∧
    (replying5 .replyLength).frame.map (·.overridden) = some false ∧
    (let f := { serves .query (.replySlot 1) (accepted .defer) with overridden := true, replyLength := some 2 }
     Plain (receiving (inFrame .serving f)) 0 ∧ (inFrame .serving f).frame = some f ∧ f.overridden = true ∧
     (2 : Byte).toNat ≤ 1 + 1 ∧ 0 + 1 < (2 : Byte).toNat) := by decide +kernel

theorem witness_ServingPortReplies_own_bytes :
    (replying5 (.replyByte 1)).frame.map (·.position) = some (.replyByte 1) ∧
    ([0xA1, 0xA2] : List Byte)[1]? = some 0xA2 ∧ (0xA2 : Byte).getMsbD 0 = true ∧ (0xA2 : Byte).getMsbD 7 = false ∧
    (BitVec.ofNat 8 ([0xA1, 0xA2] : List Byte).length : Byte).getMsbD 6 = true ∧ ([0xA1, 0xA2] : List Byte).length ≤ 64 ∧
    Plain (receiving (replying5 (.replyByte 1))) 0 := by decide +kernel

/-- R4: the last bit of the port's own byte stays on BDA, whatever the row says; a dominant bit is not overridden. -/
theorem test_own_reply_bytes :
    ((after (.replyByte 0 0) (receiving (replying5 (.replyByte 0)))).port 0).bdaDriver = .released ∧
    ((after (.replyByte 0 0xFF) (receiving (replying5 (.replyByte 1)))).port 0).bdaDriver = .drivenLow ∧
    after (.overridden 0 7) (receiving (replying5 (.replyByte 1))) = receiving (replying5 (.replyByte 1)) := by
  decide +kernel

/-- R107, R114, R116, R66: turnarounds and reply bytes of the target. -/
theorem test_replies :
    let position := fun s : State => (s.port 0).frame.map (·.position)
    let w := Window.replying query8 (.reply [0xA1, 0xA2]) 1
    position (after (.turnaroundSlot 0 .dominant .recessive)
      (receiving (serving5 .query .turnaround { accepted .defer with turnaround := some .decline }))) = some .done ∧
    position (after (.replyLengthByte 0 2) (receiving (replying5 .replyLength))) = some (.replyByte 0) ∧
    position (after (.replyByte 0 0xA1) (receiving (replying5 (.replyByte 0)))) = some (.replySlot 0) ∧
    position (after (.acknowledgeSlot 0 .dominant .dominant) (answering (replying5 (.replySlot 0) w))) =
      some (.replyByte 1) ∧
    position (after (.acknowledgeSlot 0 .dominant .dominant) (answering (replying5 (.replySlot 0) w) true)) =
      some .closing ∧
    position (after (.acknowledgeSlot 0 .dominant .recessive) (answering (replying5 (.replySlot 0) w))) = some .done ∧
    position (after (.overridden 0 0) (receiving (replying5 (.replyByte 1)))) = some (.replyByte 1) := by decide +kernel

/-- R2, R17: a port that has been overridden sends nothing more and follows the frame's sequence, as does one whose DECLINE
another station has made read REPLY. -/
theorem test_overridden_port_follows :
    let x := (after (.overridden 0 0) (receiving (replying5 (.replyByte 0)))).port 0
    let then' := fun (c : Instr) (x : Port) => (after c (receiving x)).port 0
    let y := then' (.replyByte 0 0x7F) { x with frame := x.frame.map fun f => { f with replyLength := some 2 } }
    let z := then' (.acknowledgeSlot 0 .dominant .dominant) y
    x.frame.map (·.overridden) = some true ∧ x.bdaDriver = .released ∧
    y.frame.map (·.position) = some (.replySlot 0) ∧ y.bdaDriver = .released ∧ y.bdaLowSince = none ∧
    z.frame.map (fun f => (f.position, f.accepted)) = some (.replyByte 1, 0) ∧
    (then' (.turnaroundSlot 0 .dominant .dominant)
      (serving5 .query .turnaround { accepted .defer with turnaround := some .decline })).frame.map
        (fun f => (f.position, f.overridden)) = some (.replyLength, true) := by decide +kernel

/-! ### The initiator -/

theorem witness_InitiatorFollowsSequence :
    (let s := initiating5 .query (sends .headerSlot)
     Plain s 0 ∧ (s.port 0).state = .initiating ∧ (s.port 0).frame = some (sends .headerSlot) ∧
     (sends .headerSlot).turn = some 1 ∧ s.abortPending 1 = false) ∧
    (∃ xe, (initiating5 .query (sends (.replyByte 1))).execOf 1 = some xe ∧ 1 < xe.1.desc.replyCapacity ∧
      xe.1.desc.replyCapacity ≤ 2) ∧
    (initiating5 .notice (sends (.byteSlot 1))).port 0 = inFrame .initiating (sends (.byteSlot 1)) ∧
    (sends (.byteSlot 1)).position = .byteSlot 1 ∧ (descOf .notice).outLength ≤ 1 + 1 ∧
    ([0xA1, 0xA2] : List Byte)[0]? = some 0xA1 ∧
    (65 : Byte).toNat = 65 ∧ (0 : Byte).toNat = 0 ∧
    { sends (.replySlot 0) with replyLength := some 2 }.replyLength = some 2 ∧
    { sends (.replySlot 2) with refusing := true }.refusing = true ∧
    { sends (.byte 0) with givenUp := true }.givenUp = true :=
  ⟨by decide +kernel, ⟨_, rfl, by decide, by decide⟩, by decide +kernel, rfl, by decide, rfl, rfl, rfl, rfl, rfl, rfl⟩

theorem witness_InitiatorFollowsSequence_refusing :
    let f := { sends (.replySlot 0) with refusing := true, replyLength := some (2 : Byte) }
    let s := abortPending1 (initiating5 .query f)
    Plain s 0 ∧ (s.port 0).frame = some f ∧ f.position = .replySlot 0 ∧ 0 + 1 < (2 : Byte).toNat ∧ s.abortPending 1 = true ∧
    f.turn = some 1 ∧ (∃ xe, s.execOf 1 = some xe ∧ ¬ xe.1.desc.replyCapacity ≤ 0) :=
  ⟨by decide +kernel, by decide +kernel, rfl, by decide, by decide +kernel, rfl, ⟨_, rfl, by decide⟩⟩

/-- R14, R64, R53: a refused reply byte below the capacity ends the frame, ABORTED or HOLD_TIMEOUT; R12: where another
initiator's ACCEPT lets the target send on, the attempt is over at once and the port follows the frame. -/
theorem test_refused_reply :
    let f := { sends (.replySlot 0) with refusing := true, replyLength := some (2 : Byte) }
    let s := fun g => abortPending1 (initiating5 .query g)
    ((after (.acknowledgeSlot 0 .dominant .recessive) (s f)).port 0).frame.map (fun g => (g.position, g.result)) =
      some (.closing, none) ∧
    lastStatus (after (.closing 0) (after (.acknowledgeSlot 0 .dominant .recessive) (s f))) = some (.aborted, 0) ∧
    ((after (.acknowledgeSlot 0 .dominant .dominant) (s f)).port 0).state = .observing ∧
    lastStatus (after (.acknowledgeSlot 0 .dominant .dominant) (s f)) = some (.aborted, 0) ∧
    (let u := after (.acknowledgeSlot 0 .dominant .dominant) (initiating5 .query { f with givenUp := true })
     (u.execOf 1).bind (·.2.lastResult) = some .holdTimeout ∧ (u.port 0).stats.attemptsFailed = 1) := by decide +kernel

/-- R15 to R18: the sequence of a QUERY with two request bytes, slot by slot. -/
theorem test_initiator_sequence :
    let at0 := fun (f : FrameRec) (c : Instr) =>
      ((after c (initiating5 .query f)).port 0).frame.map fun g => (g.position, g.result)
    let slot := Instr.acknowledgeSlot 0
    at0 (sends .headerSlot) (slot .recessive .recessive) = some (.closing, some .noTarget) ∧
    at0 (sends .headerSlot) (slot .dominant .dominant) = some (.byte 0, none) ∧
    at0 (sends (.byte 0)) (.byteReceived 0 0) = some (.byteSlot 0, none) ∧
    at0 (sends (.byteSlot 0)) (slot .dominant .dominant) = some (.byte 1, none) ∧
    at0 (sends (.byteSlot 1)) (slot .dominant .dominant) = some (.turnaround, none) ∧
    at0 (sends (.byteSlot 1)) (slot .dominant .recessive) = some (.closing, some .refused) ∧
    at0 (sends (.byteSlot 1)) (slot .recessive .dominant) = some (.closing, some .framing) ∧
    at0 (sends .turnaround) (.turnaroundSlot 0 .dominant .recessive) = some (.closing, some .refused) ∧
    at0 (sends .replyLength) (.replyLengthByte 0 64) = some (.replyByte 0, none) ∧
    at0 (sends .replyLength) (.replyLengthByte 0 65) = some (.closing, some .framing) ∧
    at0 { sends (.byteSlot 0) with givenUp := true } (slot .dominant .dominant) = some (.closing, none) := by decide +kernel

/-- R17: bytes up to the reply capacity of 2 are taken; the third is refused, and the attempt is TRUNCATED. -/
theorem test_initiator_takes_the_reply :
    (((after (.replyByte 0 0xD1) (initiating5 .query (sends (.replyByte 1)))).execOf 1).map (·.2.replyArea)) = some [0xD1] ∧
    (let f := { sends (.replyByte 2) with replyLength := some 3 }
     let s := after (.replyByte 0 0xD1) (initiating5 .query f)
     (s.port 0).frame.map (·.refusing) = some true ∧ (s.execOf 1).map (·.2.replyArea) = some [] ∧
     ((after (.acknowledgeSlot 0 .dominant .recessive) s).port 0).frame.bind (·.result) = some .truncated) := by
  decide +kernel

theorem witness_HoldsAndClashesOfInitiator :
    (let s := initiating5 .query (sends (.byte 0))
     Plain s 0 ∧ (s.port 0).state = .initiating ∧ (s.port 0).frame = some (sends (.byte 0)) ∧
     (sends (.byte 0)).holdSince = none) ∧
    (let f := { sends (.byte 0) with holdSince := some 0 }
     let s : State := { initiating5 .query f with timeBase := 1000 }
     Plain s 0 ∧ (s.port 0).frame = some f ∧ s.timeBase = 0 + BitVec.ofNat 32 (s.port 0).config.holdCeiling) ∧
    (inFrame .observing { FrameRec.fresh with position := .byte 0 }).state = .observing ∧
    (inFrame .initiating (sends (.byte 0))).bdaLowSince = none ∧
    ((initiating5 .query (sends (.byte 0))).stagedOf 1).bind (·.payload[0]?) = some 0xA1 ∧
    (0xA1 : Byte).getMsbD 0 = true ∧ (0xA1 : Byte).getMsbD 1 = false ∧
    ((initiating5 .query (sends .lengthByte)).stagedOf 1).map (·.desc.outLength) = some 2 := by decide +kernel

/-- R6: the initiator holds BDA low for its closing, through a hold of BCK too, and releases it at the closing. -/
theorem test_closing_holds_bda_low :
    let s := after (.acknowledgeSlot 0 .dominant .recessive) (initiating5 .query (sends .headerSlot))
    let t := after (.hold 0 0) { s with timeBase := 8 }
    let bda := fun (c : Instr) (position : Position) => ((after c (initiating5 .query (sends position))).port 0).bdaDriver
    (s.port 0).bdaDriver = .drivenLow ∧ (s.port 0).bdaLowSince = some 4 ∧ (t.port 0).bdaDriver = .drivenLow ∧
    (t.port 0).bdaLowSince = some 4 ∧ ((after (.closing 0) t).port 0).bdaDriver = .released ∧
    bda (.turnaroundSlot 0 .recessive .recessive) .turnaround = .drivenLow ∧
    bda (.turnaroundSlot 0 .dominant .dominant) .turnaround = .released ∧
    bda (.replyLengthByte 0 0) .replyLength = .drivenLow ∧ bda (.replyLengthByte 0 1) .replyLength = .released := by
  decide +kernel

/-- R13, R28: a second hold in the same slot is measured anew; a port that follows the frame counts it as BCK low time. -/
theorem test_second_hold :
    let s : State := { after (.hold 0 0) (initiating5 .query (sends .turnaround)) with timeBase := 600 }
    (((after (.hold 0 1) s).port 0).frame.bind (·.holdSince)) = some 600 ∧
    ((after (.hold 0 1) s).port 0).bckLowSince = some 596 ∧
    ((after (.hold 0 1) (observes5 .query 1 .turnaround)).port 0).silenceSince = none ∧
    (((after (.lineGoesLow 0 .bck .rises) s).port 0).frame.bind (·.holdSince)) = none := by decide +kernel

theorem witness_HoldsAndClashesOfInitiator_holds :
    (let x := inFrame .serving (serves .send .headerSlot { serviceOf .deliver with verdict := some .refuse })
     Plain (running.setPort 0 x) 0 ∧ x.state = .serving ∧ x.frame.map (·.position) = some .headerSlot ∧
     (accepted .deliver).verdict = some .accept) ∧
    (let v := { accepted .defer with turnaround := some .decline }
     (serves .query .turnaround v).service = some v ∧ (accepted .defer).turnaround = none) ∧
    (let f := (serves .query (.replyByte 1) (accepted .defer))
     { f with reply := [0xA1, 0xA2] }.reply[1]? = some 0xA2 ∧ f.overridden = false ∧
     { f with overridden := true }.overridden = true) ∧
    ((sends (.replySlot 0)).position = .replySlot 0 ∧ (sends (.replySlot 0)).refusing = false ∧
     (inFrame .arbitrating (sends (.header 0))).state = .arbitrating) := by decide +kernel

/-- R12: in a slot the sender of the byte before it has released BDA, though its last bit was dominant; the port that answers
drives presence dominant and then its verdict; and a byte's own bits stand on BDA (0xA1: its second bit is 0). -/
theorem test_bda_in_a_held_bit :
    let s := after (.headerVerdict 0 0) (initiating5 .query (sends .lengthByte))
    let held := fun (s : State) (bit : Fin 8) => ((after (.hold 0 bit) s).port 0).bdaDriver
    let refuses := running.setPort 0
      (inFrame .serving (serves .send .headerSlot { serviceOf .deliver with verdict := some .refuse }))
    (s.port 0).bdaDriver = .drivenLow ∧ held s 0 = .released ∧ held s 1 = .released ∧
    held refuses 0 = .drivenLow ∧ held refuses 1 = .released ∧
    ((after (.acknowledgeSlot 0 .dominant .recessive) (after (.hold 0 0) refuses)).port 0).bdaDriver = .released ∧
    held (initiating5 .query (sends (.byte 0))) 0 = .released ∧ held (initiating5 .query (sends (.byte 0))) 1 = .drivenLow := by
  decide +kernel

/-- R21: after a hold in a slot's verdict bit BDA's low time counts from the fall that began that bit, or from its own later
fall; after one in the presence bit, from the verdict bit's fall; and from a fall that LINE_GOES_LOW has marked. -/
theorem test_bda_low_time_after_a_hold :
    let at900 := fun s : State => ((after (.turnaroundSlot 0 .dominant .dominant) { s with timeBase := 900 }).port 0).bdaLowSince
    let s : State := { observes5 .query 1 .turnaround with timeBase := 100 }
    at900 (after (.hold 0 1) s) = some 96 ∧ at900 (after (.hold 0 0) s) = some 896 ∧ at900 s = some 896 ∧
    at900 (after (.lineGoesLow 0 .bck .falls) s) = some 100 ∧
    at900 (after (.lineGoesLow 0 .bda .falls) { after (.hold 0 1) s with timeBase := 500 }) = some 500 := by decide +kernel

/-- R20: the silence time starts at BCK's rise and does not run while BCK is low. -/
theorem test_silence_after_a_hold :
    let held : State := { after (.hold 0 1) (observes5 .query 1 .turnaround) with timeBase := 600 }
    let s := after (.lineGoesLow 0 .bck .rises) held
    after (.frameSilence 0 .recessive) held = held ∧ (s.port 0).silenceSince = some 600 ∧
    (after (.frameSilence 0 .recessive) s).timeBase = 1112 ∧
    ((after (.frameSilence 0 .recessive) s).port 0).state = .idle := by decide +kernel

/-- R14, R28, R27: a hold past the ceiling of 1000 µs; a clash. -/
theorem test_hold_and_clash :
    (let s := after (.hold 0 0) (initiating5 .query (sends (.byte 0)))
     let t := after (.holdCeilingPassed 0) s
     (s.port 0).frame.bind (·.holdSince) = some 0 ∧ t.timeBase = 1000 ∧ (t.port 0).frame.map (·.givenUp) = some true ∧
     (let u := after (.closing 0) t
      (u.port 0).state = .idle ∧ (u.execOf 1).bind (·.2.lastResult) = some .holdTimeout)) ∧
    after (.clash 0 1) (initiating5 .query (sends (.byte 0))) = initiating5 .query (sends (.byte 0)) ∧
    (let s := after (.clash 0 0) (initiating5 .query (sends (.byte 0)))
     (s.port 0).state = .observing ∧ (s.port 0).stats.clashes = 1 ∧ (s.port 0).stats.attemptsFailed = 1 ∧
     (s.execOf 1).map (fun xe => (xe.2.state, xe.2.attempts)) = some (.eligible, 1)) := by decide +kernel

theorem witness_AttemptEndDecidesFate :
    let e : ExecRec := { newRecord .inAttempt 2 with attempts := 1 }
    let s := running.setSub 1 (holding (descOf .query) (some e))
    ((abortWaiting s).execOf 1 = s.execOf 1 ∧ (abortWaiting s).admin = .aborting 1 .success ∧
      ((abortWaiting s).sub 0).staged = some (.admin 7 (.abort 1 3))) ∧
    s.execOf 1 = some ({ desc := descOf .query, payload := [0xA1, 0xA2], time := 0, exec := some e }, e) ∧
    (s.sub 1).port = some 0 ∧ (s.sub 1).completion = some 0 ∧ NoAbortWaits s 1 ∧ e.attempts ≤ 15 ∧
    s.abortPending 1 = false ∧ e.deadlinePassed = false ∧ e.limit ≠ 0 ∧ e.limit ≤ min 15 (e.attempts + 1) ∧
    min 15 ((newRecord .inAttempt 2).attempts + 1) < (newRecord .inAttempt 2).limit ∧
    (s.setSub 1 { s.sub 1 with abortPending := true }).abortPending 1 = true ∧
    { newRecord .inAttempt 2 with replyArea := [1] }.replyArea.length = 1 :=
  ⟨by decide +kernel, by decide +kernel, by decide +kernel, by decide +kernel, nofun, by decide, by decide +kernel, by decide, by decide,
    by decide, by decide, by decide +kernel, by decide⟩

/-- R55, R57, R71: the second of two attempts that fails completes with its result and tells the health table; a QUERY with
reply bytes goes to STORING. -/
theorem test_attempt_ends :
    (let e : ExecRec := { newRecord .inAttempt 2 with attempts := 1 }
     let s := (running.setSub 1 (holding (descOf .query) (some e))).endAttempt 1 (some .refused) 0
     lastStatus s = some (.refused, 0) ∧ s.health = [healthOf 0 36 .suspect 1]) ∧
    ((((initiating5 .query (sends .closing)).endAttempt 1 (some .refused) 0).execOf 1).map (·.2.state)) = some .eligible ∧
    (let e : ExecRec := { newRecord .inAttempt 2 with replyArea := [1] }
     (((running.setSub 1 (holding (descOf .query) (some e))).endAttempt 1 (some .success) 2).execOf 1).map
       (fun xe => (xe.2.state, xe.2.lastBytes)) = some (.storing, 1)) := by decide +kernel

/-! ### The ends of frames -/

/-- Port 0 serves a frame that has reached its end point. -/
def done5 (kind : FrameKind) (v : ServiceRec) : Port := serving5 kind .done v

theorem witness_ClosingEndsFrame :
    Plain (running.setPort 0 idle5) 0 ∧
    (let s := initiating5 .send { sends .closing with result := some .success }
     Plain s 0 ∧ (s.port 0).state = .initiating ∧
     (s.port 0).frame = some { sends .closing with result := some .success }) ∧
    (let s := receiving (done5 .send (accepted .deliver (some 2))) reserved8
     Plain s 0 ∧ (s.port 0).state = .serving ∧
     (s.port 0).frame = some (serves .send .done (accepted .deliver (some 2))) ∧ 0 < (s.rcv 2).held) ∧
    (let s := receiving (done5 .send { accepted .deliver with discard := true }) (full8 .discardWhenFull)
     (s.rcv 2).state = .active ∧ (s.rcv 2).lost ≤ 65535 ∧ (2 : RcvId).val = (entryFor .deliver).targetRing.toNat) ∧
    ((4 : SlotId).val = (entryFor .slotWrite).slot.toNat ∧ (entryFor .slotWrite).notifyRing = none) ∧
    (serves .send (.byte 0) (accepted .deliver)).position ≠ .done ∧ (serviceOf .deliver).verdict ≠ some .accept ∧
    isReplying (done5 .send (accepted .deliver)).window = false ∧
    (let x := { done5 .query (accepted .defer) with window := .replying query8 .decline 1 }
     ((answering x).port 0).window = .replying query8 .decline 1 ∧ (∃ y, (answering x).stagedOf 1 = some y) ∧
     ((answering x).sub 1).completion = some 0 ∧ NoAbortWaits (answering x) 1) :=
  ⟨by decide +kernel, by decide +kernel, by decide +kernel, by decide +kernel, by decide, by decide, by decide,
    by decide +kernel, by decide +kernel, ⟨_, rfl⟩, by decide +kernel, nofun⟩

/-- R116, R168: a closing that counts the frame and hands nothing on: a query whose window is NONE, and a DELIVER frame whose
reservation is cancelled or whose discarding ring is gone. -/
theorem witness_ClosingEndsFrame_nothing_handed_on :
    (let s := receiving (done5 .query (accepted .defer))
     Plain s 0 ∧ (s.port 0).frame = some (serves .query .done (accepted .defer)) ∧ isReplying (s.port 0).window = false ∧
     ((after (.closing 0) s).port 0).stats.framesServed = 1) ∧
    (let s := receiving (done5 .send (accepted .deliver))
     (accepted .deliver).reservation = none ∧ (accepted .deliver).discard = false ∧
     ((after (.closing 0) s).port 0).stats.framesServed = 1 ∧ ((after (.closing 0) s).rcv 2).queue = []) ∧
    (let s := receiving (done5 .send { accepted .deliver with discard := true }) .reset
     (s.rcv 2).state ≠ .active ∧ ((after (.closing 0) s).rcv 2).lost = 0) := by decide +kernel

/-- R67: an ABORT waits for the ANSWER or the attempt of ring 1. -/
theorem abortWaits_answering (x : Port) (b : Bool) : AbortWaits (abortWaiting (answering x b)) 1 (some (7, .success)) :=
  ⟨by decide, rfl, rfl, ⟨_, rfl⟩, rfl⟩

theorem witness_ClosingEndsFrame_other_ends :
    (Plain sending 0 ∧ (sending.port 0).state = .arbitrating ∧ (sending.port 0).frame = some (sends (.header 0)) ∧
      (sends (.header 0)).turn = some 1 ∧ (∃ xe, sending.execOf 1 = some xe) ∧ NoAbortWaits sending 1 ∧
      (inFrame .arbitrating FrameRec.fresh).frame = some FrameRec.fresh ∧ FrameRec.fresh.turn = none) ∧
    (let x := fun position => replying5 position (.replying query8 (.reply [0xA1, 0xA2]) 1)
     Plain (answering (x .closing) true) 0 ∧ ((answering (x .closing) true).port 0).state = .serving ∧
     ((answering (x .closing) true).port 0).frame.map (·.position) = some .closing ∧
     ((answering (x (.replySlot 0))).port 0).frame.map (·.position) = some (.replySlot 0) ∧
     isReplying (x .closing).window = true ∧ (accepted .defer).verdict = some .accept) ∧
    ({ entryFor .slotWrite with notifyRing := some 2 }.notifyRing = some 2 ∧ (2 : RcvId).val = (2 : Byte).toNat) ∧
    ({ sends (.byteSlot 0) with givenUp := true }.givenUp = true ∧ (sends (.byteSlot 0)).position ≠ .closing) :=
  ⟨⟨by decide +kernel, by decide +kernel, by decide +kernel, rfl, ⟨_, rfl⟩, nofun, rfl, rfl⟩, by decide +kernel,
    by decide, ⟨rfl, nofun⟩⟩

/-- R26, R66, R118, R106: the other ends of a frame. -/
theorem test_other_closings :
    let x := fun position => replying5 position (.replying query8 (.reply [0xA1, 0xA2]) 1)
    ((after (.closing 0) sending).execOf 1).map (·.2.state) = some .eligible ∧
    (let s := after (.closing 0) (abortWaiting (answering (x .closing) true))
     (s.cpl 0).queue.map (fun e => (e.ring, e.status)) = [(1, .aborted), (0, .success)] ∧ (s.rcv 2).queue = []) ∧
    (let s := after (.closing 0) (answering (x (.replySlot 0)))
     lastStatus s = some (.success, 0) ∧ (s.rcv 2).queue.map (·.reason) = [some .withdrawn]) ∧
    (let v := { accepted .slotWrite with
                hit := some { index := 6, entry := { entryFor .slotWrite with notifyRing := some 2 } }, received := [0xC1] }
     ((after (.closing 0) (receiving (done5 .send v))).rcv 2).queue.map (fun e => (e.kind, e.length, e.slot)) =
       [(.slotWritten, 1, some 4)]) := by decide +kernel

/-- R95, R163, R103, R114: what a complete frame leaves. -/
theorem test_closing_of_a_served_frame :
    (let v := { accepted .deliver (some 2) with received := [0xC1] }
     let s := after (.closing 0) (receiving (done5 .send v) reserved8)
     (s.port 0).state = .idle ∧ (s.port 0).stats.framesServed = 1 ∧ (s.rcv 2).held = 0 ∧
     (s.rcv 2).queue.map (·.payload) = [[0xC1]]) ∧
    ((after (.closing 0)
      (receiving (done5 .send { accepted .deliver with discard := true }) (full8 .discardWhenFull))).rcv 2).lost = 1 ∧
    ((after (.closing 0) (receiving (done5 .send { accepted .slotWrite with received := [0xC1] }))).reply 4).data = [0xC1] ∧
    lastStatus (after (.closing 0)
      (answering { done5 .query (accepted .defer) with window := .replying query8 .decline 1 })) = some (.success, 0) := by
  decide +kernel

/-- R96: an accepted frame that ends early counts as served and releases its reservation. -/
theorem test_early_closing :
    ((after (.closing 0) (receiving (done5 .send (serviceOf .refuse)))).port 0).stats.framesServed = 0 ∧
    let s := after (.closing 0) (receiving (serving5 .send (.byte 0) (accepted .deliver (some 2))) reserved8)
    (s.port 0).stats.framesServed = 1 ∧ (s.rcv 2).held = 0 ∧ (s.rcv 2).queue = [] := by decide +kernel

theorem witness_BrokenFramesAreDropped :
    (let s := receiving (serving5 .send (.byte 0) (accepted .deliver (some 2))) reserved8
     Plain s 0 ∧ (s.port 0).frame = some (serves .send (.byte 0) (accepted .deliver (some 2))) ∧
     (s.port 0).state = .serving ∧ isReplying (s.port 0).window = false ∧ (s.port 0).silenceSince = some 0 ∧
     ({ s with timeBase := 512 } : State).timeBase = 0 + BitVec.ofNat 32 (64 * (s.port 0).config.rate.bitTime)) ∧
    (65 : Byte).toNat = 65 ∧ (serves .send .lengthByte (accepted .deliver)).position = .lengthByte ∧
    ((after (.hold 0 1) (observes5 .query 1 .turnaround)).port 0).silenceSince = none ∧
    Plain (initiating5 .send (sends (.byte 0))) 0 ∧ (sends (.byte 0)).givenUp = false := by decide +kernel

theorem witness_BrokenFramesAreDropped_replying_and_turn :
    (let x := replying5 (.replySlot 0) (.replying query8 (.reply [0xA1, 0xA2]) 1)
     Plain (answering x) 0 ∧ ((answering x).port 0).state = .serving ∧
     ((answering x).port 0).window = .replying query8 (.reply [0xA1, 0xA2]) 1 ∧
     (∃ y, (answering x).stagedOf 1 = some y) ∧ ((answering x).sub 1).completion = some 0 ∧
     ((answering x).port 0).silenceSince = some 0 ∧ NoAbortWaits (answering x) 1) ∧
    Plain sending 0 ∧ (sending.port 0).state = .arbitrating ∧ (sends (.header 0)).turn = some 1 ∧
    { sends (.byte 0) with givenUp := true }.turn = some 1 :=
  ⟨⟨by decide +kernel, by decide +kernel, by decide +kernel, ⟨_, rfl⟩, by decide +kernel, by decide +kernel, nofun⟩,
    by decide +kernel, by decide +kernel, rfl, rfl⟩

/-- R118, R26, R28: the breaks of a reply, of a turn and of a frame that was given up. -/
theorem test_other_breaks :
    let x := replying5 (.replySlot 0) (.replying query8 (.reply [0xA1, 0xA2]) 1)
    (let s := after (.frameBroken 0 .fall) (answering x)
     lastStatus s = some (.success, 0) ∧ (s.rcv 2).queue.map (·.reason) = [some .withdrawn] ∧ (s.port 0).window = .none) ∧
    ((after (.frameBroken 0 .rise) sending).execOf 1).map (·.2.state) = some .eligible ∧
    ((after (.frameBroken 0 .rise) (initiating5 .send { sends (.byte 0) with givenUp := true })).execOf 1).bind
      (·.2.lastResult) = some .holdTimeout := by decide +kernel

/-- R20, R97: breaks, and 64 bit times of silence at 125 kbit/s. -/
theorem test_broken_frames :
    let s := receiving (serving5 .send (.byte 0) (accepted .deliver (some 2))) reserved8
    ((after (.frameBroken 0 .rise) s).port 0).stats.framesBroken = 1 ∧ ((after (.frameBroken 0 .rise) s).rcv 2).held = 0 ∧
    ((after (.frameBroken 0 .fall) s).port 0).idleSince = none ∧
    ((after (.frameSilence 0 .dominant) s).port 0).bdaLowSince = some 0 ∧
    (after (.frameSilence 0 .recessive) s).timeBase = 512 ∧
    ((after (.frameSilence 0 .recessive) s).port 0).idleSince = some 512 ∧
    ((after (.frameSilence 0 .dominant) s).port 0).idleSince = none := by decide +kernel

/-! ### Idle gap, stuck lines and recovery -/

theorem witness_RecoveryFreesOrFaultsPort :
    (let s : State := { running.setPort 0 idle5 with timeBase := 64 }
     Plain s 0 ∧ (s.port 0).state = .idle ∧ (s.port 0).idleSince = some 0 ∧
     s.timeBase = 0 + BitVec.ofNat 32 (8 * (s.port 0).config.rate.bitTime)) ∧
    { idle5 with idleSince := none }.idleSince = none ∧ { idle5 with idleFull := true }.idleFull = true ∧ idle5.idleFull = false ∧
    (let stuck := fun x => ({ running.setPort 0 { x with bckLowSince := some 0 } with timeBase := 25000 } : State)
     ((stuck idle5).port 0).bckLowSince = some 0 ∧
     (stuck idle5).timeBase = 0 + BitVec.ofNat 32 (1000 * ((stuck idle5).port 0).config.stuckLimit) ∧
     ((stuck (inFrame .arbitrating FrameRec.fresh)).port 0).frame.bind (·.turn) = none) ∧
    (let s := inPhase (.recovering 0) (.portControl 0 3) (running.setPort 0 (recovering5 .clocking 15))
     Plain s 0 ∧ (s.port 0).state = .recovering ∧
     (s.port 0).recovery = some { phase := .clocking, pulses := 15, waitSince := 0 } ∧ s.admin = .recovering 0 ∧
     (s.sub 0).occupancy = .staged ∧ (s.sub 0).staged = some (.admin 7 (.portControl 0 3)) ∧ (s.sub 0).completion = some 0 ∧
     ({ s with timeBase := 25000 } : State).timeBase = 0 + BitVec.ofNat 32 (1000 * (s.port 0).config.stuckLimit) ∧
     ({ s with timeBase := 25002 } : State).timeBase =
       0 + BitVec.ofNat 32 ((s.port 0).config.rate.bitTime / 4) + BitVec.ofNat 32 (1000 * (s.port 0).config.stuckLimit)) ∧
    (running.setPort 0 (recovering5 .gap 1 (some 0))).admin ≠ .recovering 0 ∧
    ({ running.setPort 0 (recovering5 .gap 1 (some 0)) with admin := .recovering 1 } : State).admin ≠ .recovering 0 ∧
    (recovering5 .gap 1 (some 0)).idleSince = some 0 ∧
    { recovering5 .gap 1 with bdaLowSince := some 0 }.bdaLowSince = some 0 ∧
    (recovering5 .closing 1).recovery = some { phase := .closing, pulses := 1, waitSince := 0 } ∧
    (recovering5 .waiting 0).recovery = some { phase := .waiting, pulses := 0, waitSince := 0 } ∧
    (recovering5 .releasing 1).recovery = some { phase := .releasing, pulses := 1, waitSince := 0 } ∧
    LowSince (inFrame .observing FrameRec.fresh) .bck 0 ∧ LowSince { idle5 with bdaLowSince := some 9 } .bda 9 ∧
    idle5.toFaulted.state = .faulted ∧ idle5.goOff.state = .off :=
  ⟨by decide +kernel, rfl, rfl, rfl, by decide +kernel, by decide +kernel, nofun, nofun, rfl, rfl, rfl, rfl, rfl, .inr ⟨rfl, rfl⟩,
    .inl rfl, rfl, rfl⟩

theorem witness_RecoveryFreesOrFaultsPort_stuck_in_a_frame :
    (let s : State := { initiating5 .send (sends (.byte 0)) with timeBase := 25000 }
     Plain s 0 ∧ (s.port 0).frame = some (sends (.byte 0)) ∧ (sends (.byte 0)).turn = some 1 ∧
     (∃ xe, s.execOf 1 = some xe ∧ xe.2.attempts ≤ 15) ∧ (s.sub 1).port = some 0 ∧ (s.sub 1).completion = some 0 ∧
     NoAbortWaits s 1 ∧ AbortWaits (abortWaiting s) 1 (some (7, .success))) ∧
    (let x := { replying5 (.replySlot 0) (.replying query8 (.reply [0xA1, 0xA2]) 1) with bdaLowSince := some 0 }
     Plain (answering x) 0 ∧ ((answering x).port 0).bdaLowSince = some 0 ∧ ((answering x).port 0).state = .serving ∧
     (∃ y, (answering x).stagedOf 1 = some y)) ∧
    isReplying (serving5 .send (.byte 0) (accepted .deliver (some 2))).window = false :=
  ⟨⟨by decide +kernel, by decide +kernel, rfl, ⟨_, rfl, by decide⟩, by decide +kernel, by decide +kernel, nofun,
      ⟨by decide, by decide +kernel, by decide +kernel, ⟨_, rfl⟩, by decide +kernel⟩⟩,
    ⟨by decide +kernel, by decide +kernel, by decide +kernel, ⟨_, rfl⟩⟩, by decide +kernel⟩

/-- R7: a line that falls ends the idle time, and the gap counts again once both lines are high. -/
theorem test_lines_fall_and_rise :
    let s := after (.lineGoesLow 0 .bda .falls) (running.setPort 0 { idle5 with busView := .busy })
    let t := after (.lineGoesLow 0 .bda .rises) { s with timeBase := 30 }
    (s.port 0).idleSince = none ∧ after (.idleGap 0) s = s ∧ (t.port 0).idleSince = some 30 ∧
    (after (.idleGap 0) t).timeBase = 94 ∧ ((after (.idleGap 0) t).port 0).busView = .free ∧
    ((after (.lineGoesLow 0 .bck .rises) s).port 0).idleSince = none := by decide +kernel

/-- R2: once the gap is reached the idle time stays there, though the time base wraps; a fall takes it back to 0. -/
theorem test_idle_time_stays_at_the_gap :
    let s := after (.idleGap 0) (running.setPort 0 { idle5 with busView := .busy })
    let t : State := { s with timeBase := 3 }
    running.idleTime 0 = 0 ∧ s.idleTime 0 = 64 ∧ t.idleTime 0 = 64 ∧ after (.idleGap 0) t = t ∧
    (after (.lineGoesLow 0 .bck .falls) t).idleTime 0 = 0 ∧
    { after (.lineGoesLow 0 .bck .rises) (after (.lineGoesLow 0 .bck .falls) t) with timeBase := 20 }.idleTime 0 = 17 := by
  decide +kernel

/-- R7, R36, R37, R38: the gap of 8 bit times frees the bus; a stuck line starts recovery; the 16th pulse ends it. -/
theorem test_gap_stuck_and_recovery :
    (let s := after (.idleGap 0) (running.setPort 0 { idle5 with busView := .busy })
     s.timeBase = 64 ∧ (s.port 0).busView = .free) ∧
    (let s := after (.stuckCondition 0 .bck) (running.setPort 0 { idle5 with bckLowSince := some 0 })
     s.timeBase = 25000 ∧ (s.port 0).state = .recovering ∧ (s.port 0).stats.stuckEvents = 1) ∧
    (let pulse := fun n bda => (after (.clockPulse 0 bda) (running.setPort 0 (recovering5 .clocking n))).port 0
     (pulse 14 .dominant).state = .recovering ∧ (pulse 15 .dominant).state = .faulted ∧
     (pulse 6 .recessive).recovery = some { phase := .closing, pulses := 7, waitSince := 8 }) ∧
    ((after (.idleGap 0) (running.setPort 0 (recovering5 .gap 7 (some 0)))).port 0).state = .idle ∧
    (let s := after (.recoveryFailed 0 .bck) (running.setPort 0 (recovering5 .clocking 0))
     (s.port 0).state = .faulted ∧ s.timeBase = 25000) ∧
    ((after (.recoveryFailed 0 .bda) (running.setPort 0 (recovering5 .clocking 0))).port 0).state = .recovering ∧
    (after (.recoveryFailed 0 .bda) (running.setPort 0 (recovering5 .closing 3))).timeBase = 25002 := by decide +kernel

/-- R21, R37: low times go on through a stuck line, a failure and a RECOVER; the wait for BCK counts from its release. -/
theorem test_low_times_go_on :
    (let s := after (.stuckCondition 0 .bck) (running.setPort 0 { idle5 with bckLowSince := some 0, bdaLowSince := some 3 })
     let t := after (.lineGoesLow 0 .bck .rises) s
     (s.port 0).bckLowSince = some 0 ∧ (s.port 0).bdaLowSince = some 3 ∧
     (s.port 0).recovery = some { phase := .waiting, pulses := 0, waitSince := 25000 } ∧
     (t.port 0).recovery = some { phase := .clocking, pulses := 0, waitSince := 25004 }) ∧
    (let s := after (.recoveryFailed 0 .bck) (running.setPort 0 { recovering5 .waiting 0 with bckLowSince := some 0 })
     (s.port 0).state = .faulted ∧ (s.port 0).bckLowSince = some 0) := by decide +kernel

/-- R21, R37: the port's own pull is a fall of BCK, from which the low time of a BDA that is low counts: at the first pulse, at
the next one (half a bit time, 4 µs, after the rise), and where BCK then stays low for the stuck limit. -/
theorem test_own_pull_restarts_low_time :
    let s := after (.stuckCondition 0 .bda) (running.setPort 0 { idle5 with bdaLowSince := some 3 })
    let t := after (.clockPulse 0 .dominant) { s with timeBase := 25010 }
    let u := after (.recoveryFailed 0 .bck) { s with timeBase := 26000 }
    let w := after (.recoveryFailed 0 .bck) t
    s.timeBase = 25003 ∧ (s.port 0).recovery = some { phase := .clocking, pulses := 0, waitSince := 25007 } ∧
    (s.port 0).bckLowSince = some 25003 ∧ (s.port 0).bdaLowSince = some 25003 ∧
    (t.port 0).bckLowSince = some 25014 ∧ (t.port 0).bdaLowSince = some 25014 ∧
    (u.port 0).state = .faulted ∧ (u.port 0).bckLowSince = some 25003 ∧ (u.port 0).bdaLowSince = some 25003 ∧
    w.timeBase = 50018 ∧ (w.port 0).bckLowSince = some 25014 ∧ (w.port 0).bdaLowSince = some 25014 := by decide +kernel

/-- R6, R7: a closing that a recovering port sees in its idle gap starts the gap anew, and ends the low time of a BDA that was
low; the gap is then 8 bit times of 8 µs from that closing. -/
theorem test_closing_in_the_gap :
    let s := after (.closing 0)
      { running.setPort 0 { recovering5 .gap 1 with bdaLowSince := some 40 } with timeBase := 50 }
    (s.port 0).idleSince = some 50 ∧ (s.port 0).bdaLowSince = none ∧ (s.port 0).recovery.map (·.phase) = some .gap ∧
    (let t := after (.idleGap 0) s
     t.timeBase = 114 ∧ (t.port 0).state = .idle ∧ (t.port 0).busView = .free) ∧
    ((after (.closing 0) (running.setPort 0 { idle5.toFaulted with bckLowSince := some 3 })).port 0).bckLowSince = none ∧
    ((after (.closing 0) (running.setPort 0 { recovering5 .clocking 1 with bdaLowSince := some 3 })).port 0).bdaLowSince = none := by
  decide +kernel

/-- R38, R21: where BCK rises late in the closing, BDA is released a quarter of a bit time later and its wait counts from then;
a failure by BDA in the closing ends BCK's low time. -/
theorem test_late_rise_in_the_closing :
    let s := after (.lineGoesLow 0 .bck .rises)
      { running.setPort 0 { recovering5 .closing 1 with bckLowSince := some 0 } with timeBase := 100 }
    (s.port 0).recovery = some { phase := .releasing, pulses := 1, waitSince := 102 } ∧ (s.port 0).bckLowSince = none ∧
    (let u := after (.recoveryFailed 0 .bda) (running.setPort 0 { recovering5 .closing 1 with bckLowSince := some 0 })
     (u.port 0).state = .faulted ∧ (u.port 0).bckLowSince = none) ∧
    (after (.recoveryFailed 0 .bda) s).timeBase = 25102 ∧ after (.recoveryFailed 0 .bck) s = s ∧
    ((after (.closing 0) s).port 0).recovery.map (·.phase) = some .gap := by decide +kernel

/-- R134: the RECOVER of ring 0 completes before the descriptors of the same happening. -/
theorem test_recover_completes_first :
    let s := inPhase (.recovering 0) (.portControl 0 3) (heldFor .barred)
    let done := fun u : State => (u.cpl 0).queue.map fun e => (e.ring, e.status)
    done (after (.idleGap 0) s) = [(0, .success), (1, .barred)] ∧
    done (after (.recoveryFailed 0 .bck) (s.setPort 0 (recovering5 .clocking 0))) = [(0, .portBusy), (1, .portDown)] := by
  decide +kernel

/-- R56: a stuck line in INITIATING completes BUS_STUCK at once. -/
theorem test_stuck_initiator :
    let s := after (.stuckCondition 0 .bck) (initiating5 .send (sends (.byte 0)))
    lastStatus s = some (.busStuck, 0) ∧ (s.port 0).state = .recovering ∧ s.health = [] := by decide +kernel

/-- R97, R119, R56: a stuck line at a port that serves, replies, or is in a turn. -/
theorem test_stuck_elsewhere :
    (let s := after (.stuckCondition 0 .bda) (receiving (serving5 .send (.byte 0) (accepted .deliver (some 2))) reserved8)
     (s.rcv 2).held = 0 ∧ (s.port 0).state = .recovering) ∧
    (let s := after (.stuckCondition 0 .bck) (answering (replying5 (.replySlot 0) (.replying query8 (.reply [0xA1, 0xA2]) 1)))
     lastStatus s = some (.success, 0) ∧ (s.rcv 2).queue.map (·.reason) = [some .busStuck]) ∧
    lastStatus (after (.stuckCondition 0 .bck) sending) = some (.busStuck, 0) := by decide +kernel

/-! ### The answer window -/

theorem witness_AnswerWindowLatchesOrExpires :
    let waiting := fun (token : BitVec 16) => { holding5 with window := .waiting { query8 with token } .decline 500 }
    let s := answering (waiting 9)
    s.live = true ∧ (∃ y, s.stagedOf 1 = some y ∧ y.desc.kind = .answer ∧ y.desc.token = 9) ∧ (s.sub 1).port = some 0 ∧
    (s.sub 1).completion = some 0 ∧ NoAbortWaits s 1 ∧ s.latched 1 = false ∧
    (s.port 0).window = .waiting { query8 with token := 9 } .decline 500 ∧
    (∀ q expiry due, ((answering idle5).port 0).window = .waiting q expiry due → q.token ≠ 9) ∧
    Plain s 0 ∧ (s.port 0).state = .holding ∧
    (({ s with timeBase := 500 } : State).port 0).window = .waiting { query8 with token := 9 } .decline 500 ∧
    (s.port 0).frame = some (serves .query .turnaround (serviceOf .defer)) :=
  ⟨by decide +kernel, ⟨_, rfl, rfl, rfl⟩, by decide +kernel, by decide +kernel, nofun, by decide +kernel,
    by decide +kernel, nofun, by decide +kernel, by decide +kernel, by decide +kernel, by decide +kernel⟩

/-- R113, R117: the window latches the ANSWER with its token; another is TOO_LATE. R116: the limit expires. -/
theorem test_answer_window :
    let waiting := fun (token : BitVec 16) => { holding5 with window := .waiting { query8 with token } .decline 500 }
    ((after (.answerTaken 1 .recessive) (answering (waiting 9))).port 0).window =
      .replying { query8 with token := 9 } (.reply [0xA1, 0xA2]) 1 ∧
    ((after (.answerTaken 1 .recessive) (answering (waiting 9))).port 0).state = .serving ∧
    ((after (.answerTaken 1 .dominant) (answering (waiting 9))).port 0).bckLowSince = some 0 ∧
    lastStatus (after (.answerTaken 1 .recessive) (answering (waiting 8))) = some (.tooLate, 0) ∧
    (let s := after (.answerLimitExpiry 0 .recessive) (answering (waiting 9))
     s.timeBase = 500 ∧ (s.port 0).window = .none ∧ (s.rcv 2).queue.map (·.reason) = [some .expired]) := by decide +kernel

/-! ### Rules of the whole device -/

theorem witness_TablesChangeOnlyByTheirCommands :
    (∃ t, exec .halt running = .next t) ∧ resets .halt = false ∧ Instr.halt ≠ .setMatch ∧
    (∀ p, Instr.halt ≠ .schedulerChoice p true) := ⟨⟨_, rfl⟩, rfl, nofun, nofun⟩

/-- Ring 1 fetches, and its slot read is about to end with a SEND. -/
def fetchEnds : State := { after (.fetchStart 1) posted1 with pending := [.slotReadEnd 1 (.data (slotBytes 2 0))] }

theorem witness_HealthTableStaysBounded :
    HealthBounded { running with health := fullTable, pending := [.halt] } ∧
    ∃ t, step { running with health := fullTable, pending := [.halt] } = .next t := ⟨by decide +kernel, ⟨_, rfl⟩⟩

theorem witness_CountsAndCoalescingStayLawful :
    CountsBounded fetchEnds ∧ CoalescingLawful fetchEnds ∧ ∃ t, step fetchEnds = .next t := by
  refine ⟨⟨fun r => ?_, ?_, ?_, ?_⟩, by decide +kernel, ⟨_, rfl⟩⟩
  · revert r; decide +kernel
  all_goals decide +kernel

theorem witness_SubmissionRingsStayPlaced : SubmissionRingsPlaced fetchEnds ∧ ∃ t, step fetchEnds = .next t :=
  ⟨by decide +kernel, ⟨_, rfl⟩⟩

theorem witness_ReceiveSlotsStayCovered :
    ReceiveSlotsCovered (received (some write0)) ∧ ∃ t, step (received (some write0)) = .next t :=
  ⟨by decide +kernel, ⟨_, rfl⟩⟩

theorem witness_CompletionCreditsStayCovered : CreditsCovered fetchEnds ∧ ∃ t, step fetchEnds = .next t :=
  ⟨by decide +kernel, ⟨_, rfl⟩⟩

theorem witness_PortsStayShaped :
    PortsShaped { receiving holding5 with pending := [.answerLimitExpiry 0 .recessive] } ∧
    ∃ t, step { receiving holding5 with pending := [.answerLimitExpiry 0 .recessive] } = .next t := by
  have off : PortShape Port.reset := ⟨⟨rfl, rfl⟩, by decide⟩
  refine ⟨fun p => ?_, ⟨_, rfl⟩⟩
  fin_cases p
  exacts [⟨⟨rfl, rfl, rfl⟩, by decide +kernel⟩, off, off, off]

theorem witness_OneAttemptPerPort :
    OneAttempt { sending with pending := [.headerJudgement 0 0] } ∧ OccupiedRingsNamed sending ∧
    ∃ t, step { sending with pending := [.headerJudgement 0 0] } = .next t :=
  ⟨by decide +kernel, by decide +kernel, ⟨_, rfl⟩⟩

end Sys2Proof.Tests
end

section
/-!
PROOFS. Closings (O48). First what keeps `Plain`, so that a happening at a port settles to what it has done
(State.settle_of_plain); then the completions of a turn and of an ANSWER in the terms of the statements; then a closing by
the state of its port and, at a serving port, by how its frame ends: what is handed on commutes with the port's going IDLE.
-/
namespace Sys2Proof.Machine
open Sys2Proof.Safety

variable {s : State} {p : PortId}

/-- A second update of a port replaces the first. -/
theorem State.setPort_setPort (s : State) (p : PortId) (x y : Port) : (s.setPort p x).setPort p y = s.setPort p y := by
  simp [State.setPort]

/-! ### What keeps a port without a pending stop and its engine RUNNING or HALTED -/

theorem plain_setPort {x : Port} (h : Plain s p) (hx : x.stopPending = false) : Plain (s.setPort p x) p :=
  ⟨h.1, by rw [State.setPort_port_self, hx]⟩

theorem plain_count {q : PortId} {c : Counter} (h : Plain s p) : Plain (s.count q c) p := by
  obtain ⟨he, hp⟩ := h
  refine ⟨he, ?_⟩
  by_cases hq : p = q
  · subst hq
    rwa [State.count_port_self]
  · rwa [State.count_port_ne _ _ _ _ hq]

theorem plain_release {res : Option RcvId} (h : Plain s p) : Plain (s.release res) p := by
  cases res <;> exact h

theorem plain_claimAtPosting {r : RcvId} {e : RcvEntry} (h : Plain s p) : Plain (s.claimAtPosting r e) p := by
  obtain ⟨_, ht⟩ := s.claimAtPosting_frame r e
  rw [ht]
  exact h

theorem plain_complete {r : SubId} {d : Done} (h : Plain s p) : Plain (s.complete r d) p := by
  obtain ⟨_, _, _, ht⟩ := s.complete_frame r d
  rw [ht]
  exact h

theorem plain_completeAnswer {r : SubId} {status : Status} {n : Nat} (h : Plain s p) :
    Plain (s.completeAnswer r status n) p := by
  unfold State.completeAnswer
  split
  · exact plain_complete h
  · exact h

theorem plain_targetFailure {q : PortId} {st : Station} (h : Plain s p) : Plain (s.targetFailure q st) p := by
  unfold State.targetFailure
  dsimp only
  split
  · exact h
  · split_ifs
    exacts [h, h, plain_count h]

theorem plain_targetSuccess {q : PortId} {st : Station} (h : Plain s p) : Plain (s.targetSuccess q st) p := by
  obtain ⟨_, ht⟩ := s.targetSuccess_frame q st
  rw [ht]
  exact h

theorem plain_tellHealth {q : PortId} {d : Desc} {status : Status} (h : Plain s p) : Plain (s.tellHealth q d status) p := by
  have failure := plain_targetFailure (q := q) (st := d.dest) h
  have success := plain_targetSuccess (q := q) (st := d.dest) h
  unfold State.tellHealth
  split
  · split
    exacts [failure, failure, failure, failure, success, success, h]
  · exact h

theorem plain_completeExec {r : SubId} {status : Status} {n : Nat} (h : Plain s p) :
    Plain (s.completeExec r status n) p := by
  unfold State.completeExec
  split
  · exact plain_complete (plain_tellHealth h)
  · exact h

theorem plain_returnTurn {r : SubId} (h : Plain s p) : Plain (s.returnTurn r) p := by
  unfold State.returnTurn
  split
  · exact h
  · split_ifs
    exacts [plain_completeExec h, plain_completeExec h, h]

theorem plain_endAttempt {r : SubId} {got : Option AttemptResult} {moved : Nat} (h : Plain s p) :
    Plain (s.endAttempt r got moved) p := by
  have hset : ∀ (x : StagedXfer) (e : ExecRec) status n, Plain ((s.setExec r x e).completeExec r status n) p :=
    fun _ _ _ _ => plain_completeExec h
  unfold State.endAttempt
  split
  · exact h
  · dsimp only
    split_ifs
    exacts [hset .., hset .., hset .., hset .., hset .., h, h, hset ..]

theorem plain_attemptOver {x : Port} {r : SubId} {got : Option AttemptResult} {moved : Nat} (h : Plain s p)
    (hx : x.stopPending = false) : Plain (s.attemptOver p x r got moved) p := by
  have hp : Plain (s.setPort p x) p := plain_setPort h hx
  refine plain_endAttempt ?_
  unfold State.countFailed
  split
  · exact plain_count hp
  · exact hp

theorem plain_dropService {f : FrameRec} {reason : CloseReason} (h : Plain s p) : Plain (s.dropService p f reason) p := by
  have hr : Plain (s.release (f.service.bind (·.reservation))) p := plain_release h
  unfold State.dropService
  dsimp only
  split
  · exact plain_claimAtPosting (plain_completeAnswer (plain_setPort hr hr.2))
  · exact hr

theorem plain_endEarly {f : FrameRec} (h : Plain s p) : Plain (s.endEarly p f) p := by
  unfold State.endEarly
  split
  · split_ifs
    · exact plain_completeAnswer (plain_setPort h h.2)
    · exact plain_dropService h
  · exact plain_dropService h

theorem plain_handRecord {r : RcvId} {e : RcvEntry} (h : Plain s p) : Plain (s.handRecord r e) p := by
  unfold State.handRecord
  dsimp only
  split_ifs <;> exact h

theorem plain_slotNote {q : PortId} {kind : RecordKind} {hit : Candidate} {f : FrameRec} {n : Nat} (h : Plain s p) :
    Plain (s.slotNote q kind hit f n) p := by
  unfold State.slotNote
  split
  · exact h
  · exact plain_claimAtPosting h

theorem plain_deliver {f : FrameRec} {v : ServiceRec} (h : Plain s p) : Plain (s.deliver p f v) p := by
  unfold State.deliver
  split
  · split
    · exact plain_handRecord h
    · dsimp only
      split_ifs <;> exact h
  · exact plain_slotNote h
  · split
    · exact plain_completeAnswer (plain_setPort h h.2)
    · exact h
  · exact h

theorem plain_servingCloses {f : FrameRec} {v : ServiceRec} (h : Plain s p) : Plain (s.servingCloses p f v) p := by
  have idle : ∀ {t : State}, Plain t p → Plain ((t.setPort p ((t.port p).toIdle (some s.timeBase))).setSnapshot p none) p :=
    fun ht => plain_setPort ht ht.2
  have hc : Plain (s.count p .framesServed) p := plain_count h
  unfold State.servingCloses
  refine idle ?_
  split_ifs
  exacts [plain_deliver hc, plain_endEarly hc, h]

/-! ### Completions, with the ABORT that may wait for them (R61, R67, R134) -/

theorem handedOver_sub_ne {r k : SubId} {c : CplId} {e : CplEntry} (hk : k ≠ r) : (handedOver s r c e).sub k = s.sub k := by
  simp [handedOver, State.sub, Ne.symm (Fin.val_ne_of_ne hk)]

/-- R67, R134: a staged descriptor completes, and the ABORT that waits for it completes after it. -/
theorem State.complete_eq_completed {r : SubId} {d : Done} {c : CplId} {abort : Option (BitVec 16 × Status)}
    (hc : (s.sub r).completion = some c) (ho : (s.sub r).occupancy = .staged) (ha : AbortWaits s r abort) :
    s.complete r d = completed s r c
      { ring := r, tag := d.tag, tagAbsent := d.tagAbsent, release := (s.sub r).fetch, status := d.status,
        bytes := d.bytes, attempts := d.attempts, losses := d.losses, result := d.result } abort := by
  cases abort with
  | none => rw [State.complete_of_noAbortWaits ha, State.handOver_eq hc (.inr ho)]; rfl
  | some waits =>
    obtain ⟨tag, status⟩ := waits
    obtain ⟨hr, hadmin, ho0, ⟨cmd, hs0⟩, hc0⟩ := ha
    have h0 : ∀ e, (handedOver s r c e).sub 0 = s.sub 0 := fun _ => handedOver_sub_ne hr.symm
    have hadm : ∀ e, (handedOver s r c e).admin = .aborting r status := fun _ => hadmin
    unfold State.complete
    simp only [State.handOver_eq hc (.inr ho), hadm, if_true]
    exact finishAdmin_of_staged (by rw [h0, ho0]) (by rw [h0, hs0]) (by rw [h0, hc0])

/-- R123: only a ring that is STAGED has a staged descriptor. -/
theorem State.occupancy_of_stagedOf {r : SubId} {y : StagedXfer} (h : s.stagedOf r = some y) :
    (s.sub r).occupancy = .staged := by
  unfold State.stagedOf at h
  split at h
  · assumption
  · cases h

/-- R113, R114: the completion of an ANSWER. -/
theorem State.completeAnswer_eq_completed {r : SubId} {y : StagedXfer} {c : CplId} {abort : Option (BitVec 16 × Status)}
    (status : Status) (n : Nat) (hy : s.stagedOf r = some y) (hc : (s.sub r).completion = some c)
    (ha : AbortWaits s r abort) :
    s.completeAnswer r status n = completed s r c { plainEntry s r y.desc.tag status with bytes := n } abort := by
  simp only [State.completeAnswer, hy]
  exact State.complete_eq_completed hc (State.occupancy_of_stagedOf hy) ha

/-- R62: ABORTED and EXPIRED hand no outcome to the health table. -/
theorem State.completeExec_eq_completed {r : SubId} {y : StagedXfer} {e : ExecRec} {q : PortId} {c : CplId}
    {abort : Option (BitVec 16 × Status)} {status : Status} (n : Nat) (he : s.execOf r = some (y, e))
    (hq : (s.sub r).port = some q) (hc : (s.sub r).completion = some c) (ha : AbortWaits s r abort)
    (hst : status = .aborted ∨ status = .expired) :
    s.completeExec r status n = completed s r c (execEntry s r y e status n) abort := by
  have hh : s.tellHealth q y.desc status = s := by rcases hst with rfl | rfl <;> simp [State.tellHealth]
  obtain ⟨-, -, ho, -⟩ := State.staged_of_execOf he
  simp only [State.completeExec, he, hq, hh]
  exact State.complete_eq_completed hc ho ha

/-- R51, R59, R65: a turn that is over without a loss. -/
theorem State.returnTurn_eq_turnOver {r : SubId} {y : StagedXfer} {e : ExecRec} {q : PortId} {c : CplId}
    {abort : Option (BitVec 16 × Status)} (he : s.execOf r = some (y, e)) (hq : (s.sub r).port = some q)
    (hc : (s.sub r).completion = some c) (ha : AbortWaits s r abort) : s.returnTurn r = turnOver s r c y e abort := by
  simp only [State.returnTurn, he, turnOver]
  split_ifs
  · exact State.completeExec_eq_completed _ he hq hc ha (.inl rfl)
  · exact State.completeExec_eq_completed _ he hq hc ha (.inr rfl)
  · rfl

/-! ### The numbers that a match entry names -/

theorem ringOfByte_eq {b : Byte} {r : RcvId} (h : r.val = b.toNat) : ringOfByte b = r := by
  have hr := r.isLt
  apply Fin.ext
  simp only [ringOfByte, BitVec.val_toFin, BitVec.toNat_setWidth]
  omega

theorem slotOfByte_eq {b : Byte} {i : SlotId} (h : i.val = b.toNat) : slotOfByte b = i := by
  have hi := i.isLt
  apply Fin.ext
  simp only [slotOfByte, BitVec.val_toFin, BitVec.toNat_setWidth]
  omega

/-- R163: a count at or below its maximum goes up by one, up to the maximum. -/
theorem saturate_eq_min {cap n : Nat} (h : n ≤ cap) : saturate cap n = min cap (n + 1) := by
  unfold saturate
  split <;> omega

/-! ### A serving port goes IDLE (R30) -/

/-- R30: a serving port goes IDLE at `now`, and its snapshot area is absent. -/
def State.serviceOver (s : State) (p : PortId) (now : Time) : State :=
  (s.setPort p ((s.port p).toIdle (some now))).setSnapshot p none

/-- R30, R40: the state after a serving port has gone IDLE with its frame counted and its window at `w`. -/
def served (s : State) (p : PortId) (w : Window) : State :=
  (s.setPort p
    { idleAfter (s.port p) (some s.timeBase) with
      window := w,
      stats := { (s.port p).stats with framesServed := (s.port p).stats.framesServed + 1 } }).setSnapshot p none

variable {f : FrameRec} {v : ServiceRec}

theorem State.servingCloses_of_not_accept (hv : v.verdict ≠ some .accept) :
    s.servingCloses p f v = s.serviceOver p s.timeBase := by
  simp [State.servingCloses, State.serviceOver, hv]

theorem State.servingCloses_early (hv : v.verdict = some .accept) (hd : f.position ≠ .done) :
    s.servingCloses p f v = ((s.count p .framesServed).endEarly p f).serviceOver p s.timeBase := by
  simp [State.servingCloses, State.serviceOver, hv, hd]

theorem State.servingCloses_done (hv : v.verdict = some .accept) (hd : f.position = .done) :
    s.servingCloses p f v = ((s.count p .framesServed).deliver p f v).serviceOver p s.timeBase := by
  simp [State.servingCloses, State.serviceOver, hv, hd]

theorem State.serviceOver_count : (s.count p .framesServed).serviceOver p s.timeBase = served s p (s.port p).window := by
  rw [State.serviceOver, State.count_port_self, State.count, State.setPort_setPort]
  rfl

theorem State.serviceOver_count_window {w : Window} :
    ((s.count p .framesServed).setPort p { (s.count p .framesServed).port p with window := w }).serviceOver p s.timeBase =
      served s p w := by
  rw [State.serviceOver, State.setPort_port_self, State.setPort_setPort, State.count_port_self, State.count,
    State.setPort_setPort]
  rfl

theorem State.serviceOver_release {res : Option RcvId} {now : Time} :
    (s.release res).serviceOver p now = (s.serviceOver p now).release res := by
  cases res <;> rfl

theorem State.serviceOver_claimAtPosting {r : RcvId} {e : RcvEntry} {now : Time} :
    (s.claimAtPosting r e).serviceOver p now = (s.serviceOver p now).claimAtPosting r e := by
  have hk : (s.serviceOver p now).rcv r = s.rcv r := rfl
  unfold State.claimAtPosting
  rw [hk]
  split <;> rfl

theorem serviceOver_completed {r : SubId} {c : CplId} {e : CplEntry} {abort : Option (BitVec 16 × Status)} {now : Time} :
    (completed s r c e abort).serviceOver p now = completed (s.serviceOver p now) r c e abort := by
  cases abort <;> rfl

/-! ### A closing by the state of its port (R6) -/

/-- A closing is executed by its meaning. -/
theorem exec_closing_eq : exec (.closing p) s = execClosing p s := rfl

theorem closing_at_idle (h : Plain s p) (hs : (s.port p).state = .idle) :
    exec (.closing p) s = .next (s.setPort p ((s.port p).seesClosing s.timeBase)) := by
  have hp : Plain (s.setPort p ((s.port p).seesClosing s.timeBase)) p := plain_setPort h h.2
  simp only [exec_closing_eq, execClosing, State.event_of_live (State.live_of_plain h), hs, State.settle_of_plain hp]

section
variable (h : Plain s p) (hf : (s.port p).frame = some f)
include h hf

/-- R29, R26: a port that has no turn and no service discards its frame record. -/
theorem closing_at_receiver
    (hs : (s.port p).state = .observing ∨ ((s.port p).state = .arbitrating ∧ f.turn = none)) :
    exec (.closing p) s = .next (s.setPort p (idleAfter (s.port p) (some s.timeBase))) := by
  have hp : Plain (s.setPort p ((s.port p).toIdle (some s.timeBase))) p := plain_setPort h h.2
  rcases hs with hs | ⟨hs, ht⟩
  · simp only [exec_closing_eq, execClosing, State.event_of_live (State.live_of_plain h), hs, hf, State.settle_of_plain hp]
    rfl
  · simp only [exec_closing_eq, execClosing, State.event_of_live (State.live_of_plain h), hs, hf, ht,
      State.settle_of_plain hp]
    rfl

/-- R26: a closing before a loss returns the turn (notes/assumptions/9.md). -/
theorem closing_at_arbitrating {r : SubId} (hs : (s.port p).state = .arbitrating) (ht : f.turn = some r) :
    exec (.closing p) s = .next ((s.setPort p (idleAfter (s.port p) (some s.timeBase))).returnTurn r) := by
  have hp : Plain ((s.setPort p ((s.port p).toIdle (some s.timeBase))).returnTurn r) p :=
    plain_returnTurn (plain_setPort h h.2)
  simp only [exec_closing_eq, execClosing, State.event_of_live (State.live_of_plain h), hs, hf, ht, State.settle_of_plain hp]
  rfl

/-- R27, R53: a closing ends an initiator's attempt. -/
theorem closing_at_initiator {r : SubId} (hs : (s.port p).state = .initiating) (ht : f.turn = some r) :
    exec (.closing p) s =
      .next (s.attemptOver p (idleAfter (s.port p) (some s.timeBase)) r f.closingResult f.moved) := by
  have hp : Plain (s.attemptOver p ((s.port p).toIdle (some s.timeBase)) r f.closingResult f.moved) p :=
    plain_attemptOver h h.2
  simp only [exec_closing_eq, execClosing, State.event_of_live (State.live_of_plain h), hs, hf, ht, State.settle_of_plain hp]
  rfl

theorem closing_at_serving (hs : (s.port p).state = .serving) (hv : f.service = some v) :
    exec (.closing p) s = .next (s.servingCloses p f v) := by
  have hp : Plain (s.servingCloses p f v) p := plain_servingCloses h
  simp only [exec_closing_eq, execClosing, State.event_of_live (State.live_of_plain h), hs, hf, hv, State.settle_of_plain hp]

end

/-- R27, R40, R65: the end of an attempt with the port's count of it. -/
theorem State.attemptOver_eq {x : Port} {r : SubId} {got : Option AttemptResult} {moved : Nat} :
    s.attemptOver p x r got moved =
      (s.setPort p
        { x with
          stats :=
            { x.stats with
              attemptsFailed :=
                if (got.getD .framing).failed = true ∧ s.abortPending r = false then x.stats.attemptsFailed + 1
                else x.stats.attemptsFailed } }).endAttempt r got moved := by
  have ha : (s.setPort p x).abortPending r = s.abortPending r := rfl
  unfold State.attemptOver State.countFailed
  rw [ha]
  split
  · rw [State.count, State.setPort_port_self, State.setPort_setPort]
    rfl
  · rfl

/-- R27, R28, R53: the result at a closing, by whether the frame was given up and whose closing it is. -/
theorem FrameRec.closingResult_eq {res : Option AttemptResult}
    (h : (f.givenUp = true ∧ res = some .holdTimeout) ∨ (f.givenUp = false ∧ f.position = .closing ∧ f.result = res) ∨
      (f.givenUp = false ∧ f.position ≠ .closing ∧ res = some .framing)) : f.closingResult = res := by
  unfold FrameRec.closingResult
  rcases h with ⟨hg, rfl⟩ | ⟨hg, hp, rfl⟩ | ⟨hg, hp, rfl⟩ <;> simp [*]

/-! ### An accepted frame that ends early (R96, R118, R66) -/

theorem State.count_window {n : Counter} : ((s.count p n).port p).window = (s.port p).window := by
  rw [State.count_port_self]

theorem State.release_port {res : Option RcvId} {k : PortId} : (s.release res).port k = s.port k := by
  cases res <;> rfl

theorem State.release_setPort {res : Option RcvId} {x : Port} :
    (s.release res).setPort p x = (s.setPort p x).release res := by
  cases res <;> rfl

/-- R97: where no reply is in progress, the reservation is released, and nothing else happens. -/
theorem State.dropService_of_not_replying {reason : CloseReason} (hw : isReplying (s.port p).window = false) :
    s.dropService p f reason = s.release (f.service.bind (·.reservation)) := by
  unfold State.dropService
  dsimp only
  split
  · rename_i hr
    rw [State.release_port] at hr
    simp [hr, isReplying] at hw
  · rfl

theorem State.endEarly_of_not_replying (hw : isReplying (s.port p).window = false) :
    s.endEarly p f = s.release (f.service.bind (·.reservation)) := by
  unfold State.endEarly
  split
  · simp [*, isReplying] at hw
  · exact State.dropService_of_not_replying hw

theorem servingCloses_early_without_reply (hf : f.service = some v) (hv : v.verdict = some .accept)
    (hd : f.position ≠ .done) (hw : isReplying (s.port p).window = false) :
    s.servingCloses p f v = (served s p (s.port p).window).release v.reservation := by
  rw [← State.count_window (n := .framesServed)] at hw
  rw [State.servingCloses_early hv hd, State.endEarly_of_not_replying hw, hf, State.serviceOver_release,
    State.serviceOver_count]
  rfl

section
variable {q : QueryDetails} {reply : LatchedReply} {r : SubId} {c : CplId} {y : StagedXfer}
  {abort : Option (BitVec 16 × Status)}

theorem serviceOver_queryDropped {n : Nat} {reason : CloseReason} {now : Time} :
    (queryDropped s p q r c y n reason abort).serviceOver p now =
      queryDropped (s.serviceOver p now) p q r c y n reason abort := by
  unfold queryDropped
  rw [State.serviceOver_claimAtPosting, serviceOver_completed]
  rfl

/-- R115: the record that reports a query closed has the time base, which a completion leaves as it was. -/
theorem queryClosed_completed {e : CplEntry} {reason : CloseReason} :
    (completed s r c e abort).queryClosed p q reason =
      (completed s r c e abort).claimAtPosting q.ring (closedRecord p q reason s.timeBase) := by
  cases abort <;> rfl

theorem State.completeAnswer_setPort {status : Status} {n : Nat} {x : Port} (hy : s.stagedOf r = some y)
    (hc : (s.sub r).completion = some c) (ha : AbortWaits s r abort) :
    (s.setPort p x).completeAnswer r status n =
      completed (s.setPort p x) r c { plainEntry s r y.desc.tag status with bytes := n } abort :=
  State.completeAnswer_eq_completed (s := s.setPort p x) status n hy hc ha

theorem State.completeAnswer_release {status : Status} {n : Nat} {x : Port} {res : Option RcvId}
    (hy : s.stagedOf r = some y) (hc : (s.sub r).completion = some c) (ha : AbortWaits s r abort) :
    ((s.setPort p x).release res).completeAnswer r status n =
      completed ((s.setPort p x).release res) r c
        { plainEntry ((s.setPort p x).release res) r y.desc.tag status with bytes := n } abort := by
  cases res
  · exact State.completeAnswer_setPort hy hc ha
  · exact State.completeAnswer_eq_completed (s := (s.setPort p x).release (some _)) status n hy hc ha

/-- R118, R119: the reply in progress ends with its reservation released, and the query is reported closed. -/
theorem State.dropService_of_replying {reason : CloseReason} (hw : (s.port p).window = .replying q reply r)
    (hy : s.stagedOf r = some y) (hc : (s.sub r).completion = some c) (ha : AbortWaits s r abort) :
    s.dropService p f reason =
      queryDropped ((s.setPort p { s.port p with window := .none }).release (f.service.bind (·.reservation)))
        p q r c y f.accepted reason abort := by
  unfold State.dropService
  simp only [State.release_port, hw, State.release_setPort]
  rw [State.completeAnswer_release hy hc ha, queryClosed_completed]
  rfl

variable (hw : (s.port p).window = .replying q reply r) (hy : s.stagedOf r = some y) (hc : (s.sub r).completion = some c)
  (ha : AbortWaits s r abort) (hv : v.verdict = some .accept)
include hw hy hc ha hv

/-- R66: the port's own closing for an ABORT ends the reply in progress without a QUERY_CLOSED record. -/
theorem servingCloses_own_closing (hd : f.position = .closing) :
    s.servingCloses p f v =
      completed (served s p .none) r c
        { plainEntry (served s p .none) r y.desc.tag .aborted with bytes := f.accepted } abort := by
  have hw' : ((s.count p .framesServed).port p).window = .replying q reply r := by rw [State.count_window, hw]
  rw [State.servingCloses_early hv (by rw [hd]; nofun)]
  simp only [State.endEarly, hw', hd, if_true]
  rw [State.completeAnswer_setPort (s := s.count p .framesServed) hy hc ha, serviceOver_completed]
  rw [State.serviceOver_count_window]
  rfl

/-- R118: another station's closing withdraws the query whose reply is in progress. -/
theorem servingCloses_withdrawn (hf : f.service = some v) (hd : f.position ≠ .done) (ho : f.position ≠ .closing) :
    s.servingCloses p f v =
      queryDropped ((served s p .none).release v.reservation) p q r c y f.accepted .withdrawn abort := by
  have hw' : ((s.count p .framesServed).port p).window = .replying q reply r := by rw [State.count_window, hw]
  have hdrop := State.dropService_of_replying (s := s.count p .framesServed) (f := f) (reason := .withdrawn) hw' hy hc ha
  rw [State.servingCloses_early hv hd]
  simp only [State.endEarly, hw', ho, if_false]
  rw [hdrop, serviceOver_queryDropped]
  rw [State.serviceOver_release, State.serviceOver_count_window, hf]
  rfl

end

/-! ### An accepted frame that ends complete (R95, R106, R114, R168) -/

section
variable {h : Candidate}

/-- R95: a frame that a reply slot has answered hands nothing on. -/
theorem State.deliver_replySlot (hh : v.hit = some h) (ha : h.entry.action = some .replySlot) : s.deliver p f v = s := by
  simp [State.deliver, hh, ha]

/-- R116, R120, R168: a query whose window is closed hands nothing on. -/
theorem State.deliver_defer_not_replying (hh : v.hit = some h) (ha : h.entry.action = some .defer)
    (hw : isReplying (s.port p).window = false) : s.deliver p f v = s := by
  cases hr : (s.port p).window <;> simp_all [State.deliver, isReplying]

theorem State.deliver_defer_replying {q : QueryDetails} {reply : LatchedReply} {r : SubId} (hh : v.hit = some h)
    (ha : h.entry.action = some .defer) (hw : (s.port p).window = .replying q reply r) :
    s.deliver p f v =
      (s.setPort p { s.port p with window := .none }).completeAnswer r
        (if s.abortPending r = true then .aborted else .success) f.accepted := by
  simp [State.deliver, hh, ha, hw]

/-- R95, R159: a held reservation becomes the frame's record. -/
theorem State.deliver_record {r : RcvId} (hh : v.hit = some h) (ha : h.entry.action = some .deliver)
    (hr : v.reservation = some r) (hheld : 0 < (s.rcv r).held) :
    s.deliver p f v =
      s.setRcv r
        { s.rcv r with held := (s.rcv r).held - 1, queue := (s.rcv r).queue ++ [frameRecord p f v h] } := by
  simp [State.deliver, hh, ha, hr, State.handRecord, Nat.ne_of_gt hheld]

/-- R95, R163, R168: a DELIVER frame without a reservation is counted lost where its ring discards and is still there. -/
theorem State.deliver_without_reservation (hh : v.hit = some h) (ha : h.entry.action = some .deliver)
    (hr : v.reservation = none) :
    s.deliver p f v =
      if v.discard = true ∧ (s.rcv (ringOfByte h.entry.targetRing)).state = .active then
        s.countLost (ringOfByte h.entry.targetRing)
      else s := by
  simp [State.deliver, hh, ha, hr]

/-- R95, R106: a SLOT_WRITE frame loads its slot, and a note of it is posted. -/
theorem State.deliver_slotWrite {i : SlotId} (hh : v.hit = some h) (ha : h.entry.action = some .slotWrite)
    (hi : i.val = h.entry.slot.toNat) :
    s.deliver p f v =
      (s.setReply i { s.reply i with loaded := true, data := v.received }).slotNote p .slotWritten h f
        v.received.length := by
  simp [State.deliver, hh, ha, slotOfByte_eq hi]

variable (hv : v.verdict = some .accept) (hd : f.position = .done)
include hv hd

/-- A frame of which nothing is handed on is counted, and that is all. -/
theorem servingCloses_of_nothing (hn : (s.count p .framesServed).deliver p f v = s.count p .framesServed) :
    s.servingCloses p f v = served s p (s.port p).window := by
  rw [State.servingCloses_done hv hd, hn, State.serviceOver_count]

variable (hh : v.hit = some h)
include hh

theorem servingCloses_record {r : RcvId} (ha : h.entry.action = some .deliver) (hr : v.reservation = some r)
    (hheld : 0 < (s.rcv r).held) :
    s.servingCloses p f v =
      (served s p (s.port p).window).setRcv r
        { s.rcv r with held := (s.rcv r).held - 1, queue := (s.rcv r).queue ++ [frameRecord p f v h] } := by
  rw [State.servingCloses_done hv hd, State.deliver_record (s := s.count p .framesServed) hh ha hr hheld,
    ← State.serviceOver_count]
  rfl

theorem servingCloses_discarded {r : RcvId} (ha : h.entry.action = some .deliver) (hr : v.reservation = none)
    (hdis : v.discard = true) (hring : r.val = h.entry.targetRing.toNat) (hact : (s.rcv r).state = .active)
    (hlost : (s.rcv r).lost ≤ 65535) :
    s.servingCloses p f v =
      (served s p (s.port p).window).setRcv r { s.rcv r with lost := min 65535 ((s.rcv r).lost + 1) } := by
  have hsat : saturate Config.lostCap (s.rcv r).lost = min 65535 ((s.rcv r).lost + 1) := saturate_eq_min hlost
  rw [State.servingCloses_done hv hd, State.deliver_without_reservation hh ha hr, ringOfByte_eq hring,
    if_pos ⟨hdis, hact⟩, ← hsat, ← State.serviceOver_count]
  rfl

theorem servingCloses_slotWrite {i : SlotId} (ha : h.entry.action = some .slotWrite) (hi : i.val = h.entry.slot.toNat)
    (hn : h.entry.notifyRing = none) :
    s.servingCloses p f v =
      (served s p (s.port p).window).setReply i { s.reply i with loaded := true, data := v.received } := by
  rw [State.servingCloses_done hv hd, State.deliver_slotWrite hh ha hi, ← State.serviceOver_count]
  simp only [State.slotNote, hn]
  rfl

theorem servingCloses_slotWrite_note {i : SlotId} {b : Byte} {r : RcvId} (ha : h.entry.action = some .slotWrite)
    (hi : i.val = h.entry.slot.toNat) (hn : h.entry.notifyRing = some b) (hring : r.val = b.toNat) :
    s.servingCloses p f v =
      ((served s p (s.port p).window).setReply i { s.reply i with loaded := true, data := v.received }).claimAtPosting r
        { kind := .slotWritten, port := p, frameKind := Header.frameKind f.rxHeader, entry := h.index,
          source := Header.source f.rxHeader, channel := f.channel.getD 0, length := v.received.length,
          token := none, reason := none, slot := some i, timestamp := s.timeBase, payload := [] } := by
  rw [State.servingCloses_done hv hd, State.deliver_slotWrite hh ha hi]
  simp only [State.slotNote, hn, ringOfByte_eq hring, slotOfByte_eq hi]
  rw [State.serviceOver_claimAtPosting, ← State.serviceOver_count]
  rfl

/-- R114: the reply has been sent, and its ANSWER completes, ABORTED with an abort pending (R66). -/
theorem servingCloses_replied {q : QueryDetails} {reply : LatchedReply} {r : SubId} {c : CplId} {y : StagedXfer}
    {abort : Option (BitVec 16 × Status)} (ha : h.entry.action = some .defer)
    (hw : (s.port p).window = .replying q reply r) (hy : s.stagedOf r = some y) (hc : (s.sub r).completion = some c)
    (hab : AbortWaits s r abort) :
    s.servingCloses p f v =
      completed (served s p .none) r c
        { plainEntry (served s p .none) r y.desc.tag (if s.abortPending r = true then .aborted else .success) with
          bytes := f.accepted }
        abort := by
  have hw' : ((s.count p .framesServed).port p).window = .replying q reply r := by rw [State.count_window, hw]
  rw [State.servingCloses_done hv hd, State.deliver_defer_replying hh ha hw',
    State.completeAnswer_setPort (s := s.count p .framesServed) hy hc hab, serviceOver_completed, State.serviceOver_count_window]
  rfl

end
/-! ### The statement -/

/-- Settles O48, by the state of the port and, at a serving port, by how its frame ends. -/
theorem closingEndsFrame : Obligations.ClosingEndsFrame := by
  intro s p hplain x now
  refine ⟨closing_at_idle hplain, fun f hf => ⟨closing_at_receiver hplain hf, ?arbitrating, ?initiating, ?serving⟩⟩
  case arbitrating =>
    intro r y e c abort hs ht he hq hc ha
    rw [closing_at_arbitrating hplain hf hs ht]
    exact congrArg _ (State.returnTurn_eq_turnOver he hq hc ha)
  case initiating =>
    intro r res hs ht hres
    rw [closing_at_initiator hplain hf hs ht, FrameRec.closingResult_eq hres, State.attemptOver_eq]
    rfl
  case serving =>
    intro v hs hserv t u
    rw [closing_at_serving hplain hf hs hserv]
    simp only [Host.Outcome.next.injEq]
    refine ⟨State.servingCloses_of_not_accept, fun hv hd hw => servingCloses_early_without_reply hserv hv hd hw,
      ?replyEndsEarly, fun h hv hd hh => ?complete⟩
    case replyEndsEarly =>
      intro q reply r c y abort hv hd hw hy hc ha
      exact ⟨servingCloses_own_closing hw hy hc ha hv, servingCloses_withdrawn hw hy hc ha hv hserv hd⟩
    case complete =>
      refine ⟨fun ha => ?replySlot, fun ha hw => ?closedWindow, fun ha hr hdis => ?cancelled,
        fun r ha hr hdis hring hgone => ?ringGone, fun r ha hr hheld => servingCloses_record hv hd hh ha hr hheld,
        fun r ha hr hdis hring hact hlost => servingCloses_discarded hv hd hh ha hr hdis hring hact hlost,
        fun i ha hi => ⟨servingCloses_slotWrite hv hd hh ha hi,
          fun b r hn hring => servingCloses_slotWrite_note hv hd hh ha hi hn hring⟩,
        fun q reply r c y abort ha hw hy hc hab => servingCloses_replied hv hd hh ha hw hy hc hab⟩
      all_goals refine servingCloses_of_nothing hv hd ?_
      case replySlot => exact State.deliver_replySlot hh ha
      case closedWindow => exact State.deliver_defer_not_replying hh ha (by rwa [State.count_window])
      case cancelled => simp [State.deliver_without_reservation hh ha hr, hdis]
      case ringGone =>
        rw [State.deliver_without_reservation hh ha hr, ringOfByte_eq hring]
        exact if_neg fun hact => hgone hact.2

end Sys2Proof.Machine
end

section
/-!
PROOFS. SET_PORT (O29). First what a command of ring 0 gives its meaning: the tag with which it ends, and the numbered
part that its parameter names; then the configuration that the seven fields make; then SET_PORT by the first of its checks
that fails.
-/
namespace Sys2Proof.Machine
open Sys2Proof.Safety

variable {s : State} {tag : BitVec 16}

/-! ### What a carried command gives its meaning -/

/-- R179: a command that ring 0 carries ends with its own tag. -/
theorem finishAdmin_of_carries {cmd : AdminCmd} {status : Status} {result : Word32} (h : Carries s tag cmd) :
    s.finishAdmin status result = commandEnds s tag status result := by
  obtain ⟨-, -, ho, hs, hc⟩ := h
  exact finishAdmin_of_staged ho hs hc

/-- A port's update leaves the command that ring 0 carries. -/
theorem carries_setPort {cmd : AdminCmd} {p : PortId} {x : Port} (h : Carries s tag cmd) :
    Carries (s.setPort p x) tag cmd := h

theorem numbered_val {n : Nat} (i : Fin n) : numbered n i.val = some i := dif_pos i.isLt

theorem numbered_eq_none {n i : Nat} (h : n ≤ i) : numbered n i = none := dif_neg (Nat.not_lt.2 h)

/-! ### The configuration of SET_PORT (R32) -/

/-- R32: no two rates have the same bit time. -/
theorem Rate.bitTime_injective : Function.Injective Rate.bitTime := by
  intro j k h
  cases j <;> cases k <;> simp_all [Rate.bitTime]

/-- R32: the codes 0 to 3 are those of the bit times 8, 4, 2 and 1 µs. -/
theorem Rate.exists_ofCode {rate : Nat} (hr : rate ≤ 3) :
    ∃ k, Rate.ofCode rate = some k ∧ k.bitTime = 8 / 2 ^ rate := by
  interval_cases rate <;> exact ⟨_, rfl, rfl⟩

/-- R32: the rate of a code is the one with the code's bit time. -/
theorem Rate.ofCode_of_bitTime {rate : Nat} {k : Rate} (hr : rate ≤ 3) (hk : k.bitTime = 8 / 2 ^ rate) :
    Rate.ofCode rate = some k := by
  obtain ⟨j, hj, ht⟩ := Rate.exists_ofCode hr
  rw [hj, Rate.bitTime_injective (ht.trans hk.symm)]

/-- R32: no code above 3 is a rate's. -/
theorem Rate.le_of_ofCode {rate : Nat} {k : Rate} (h : Rate.ofCode rate = some k) : rate ≤ 3 :=
  match rate, h with
  | 0, _ | 1, _ | 2, _ | 3, _ => by decide
  | _ + 4, h => nomatch h

/-- R32: the seven fields of SET_PORT are in their ranges. -/
def PortFieldsInRange (rate station holdCeiling answerLimit patience barThreshold stuckLimit : Nat) : Prop :=
  rate ≤ 3 ∧ station ≤ 1022 ∧ (10 ≤ holdCeiling ∧ holdCeiling ≤ 65535) ∧ (10 ≤ answerLimit ∧ answerLimit ≤ 65535) ∧
    (1 ≤ patience ∧ patience ≤ 255) ∧ (1 ≤ barThreshold ∧ barThreshold ≤ 15) ∧ 1 ≤ stuckLimit ∧ stuckLimit ≤ 255

section
variable {rate station holdCeiling answerLimit patience barThreshold stuckLimit : Nat}

/-- R32: fields in their ranges make the configuration that holds each of them. -/
theorem portConfig_of_inRange {k : Rate}
    (hin : PortFieldsInRange rate station holdCeiling answerLimit patience barThreshold stuckLimit)
    (hk : k.bitTime = 8 / 2 ^ rate) :
    portConfig rate station holdCeiling answerLimit patience barThreshold stuckLimit =
      some { station := BitVec.ofNat 10 station, rate := k, holdCeiling, answerLimit, patience, barThreshold,
             stuckLimit } := by
  obtain ⟨hrate, hstation, ⟨hhold, hhold'⟩, ⟨hanswer, hanswer'⟩, ⟨hpat, hpat'⟩, ⟨hbar, hbar'⟩, hstuck, hstuck'⟩ := hin
  rw [portConfig, Rate.ofCode_of_bitTime hrate hk]
  exact if_pos ⟨hstation, hhold, hhold', hanswer, hanswer', hpat, hpat', hbar, hbar', hstuck, hstuck'⟩

/-- R33: a field out of its range makes no configuration. -/
theorem portConfig_of_not_inRange
    (hout : ¬ PortFieldsInRange rate station holdCeiling answerLimit patience barThreshold stuckLimit) :
    portConfig rate station holdCeiling answerLimit patience barThreshold stuckLimit = none := by
  cases hr : Rate.ofCode rate with
  | none => rw [portConfig, hr]
  | some k =>
    rw [portConfig, hr]
    refine if_neg ?_
    rintro ⟨hstation, hhold, hhold', hanswer, hanswer', hpat, hpat', hbar, hbar', hstuck⟩
    exact hout ⟨Rate.le_of_ofCode hr, hstation, ⟨hhold, hhold'⟩, ⟨hanswer, hanswer'⟩, ⟨hpat, hpat'⟩, ⟨hbar, hbar'⟩, hstuck⟩

/-! ### SET_PORT by its first check that fails (R33) -/

variable {port : Nat} {p : PortId}

theorem exec_setPort_eq : exec .setPort s = execSetPort s := rfl

theorem setPort_port_above
    (h : Carries s tag (.setPort port rate station holdCeiling answerLimit patience barThreshold stuckLimit))
    (hp : 4 ≤ port) : exec .setPort s = .next (commandEnds s tag .badParameter) := by
  rw [exec_setPort_eq, execSetPort, freshCmd_of_carries h]
  simp only [numbered_eq_none hp, finishAdmin_of_carries h]

variable (h : Carries s tag (.setPort p.val rate station holdCeiling answerLimit patience barThreshold stuckLimit))
include h

theorem setPort_port_not_off (hs : (s.port p).state ≠ .off) :
    exec .setPort s = .next (commandEnds s tag .portBusy) := by
  rw [exec_setPort_eq, execSetPort, freshCmd_of_carries h]
  simp only [numbered_val, if_pos hs, finishAdmin_of_carries h]

theorem setPort_without_config (hs : (s.port p).state = .off)
    (hc : portConfig rate station holdCeiling answerLimit patience barThreshold stuckLimit = none) :
    exec .setPort s = .next (commandEnds s tag .badParameter) := by
  rw [exec_setPort_eq, execSetPort, freshCmd_of_carries h]
  simp only [numbered_val, if_neg (not_not_intro hs), hc, finishAdmin_of_carries h]

theorem setPort_with_config {c : PortConfig} (hs : (s.port p).state = .off)
    (hc : portConfig rate station holdCeiling answerLimit patience barThreshold stuckLimit = some c) :
    exec .setPort s = .next (commandEnds (s.setPort p { s.port p with config := c }) tag .success) := by
  rw [exec_setPort_eq, execSetPort, freshCmd_of_carries h]
  simp only [numbered_val, if_neg (not_not_intro hs), hc, finishAdmin_of_carries (carries_setPort h)]

end

/-! ### The statement -/

/-- Settles O29, by the order of the checks of R33. -/
theorem setPortReplacesConfiguration : Obligations.SetPortReplacesConfiguration := by
  intro s tag port rate station holdCeiling answerLimit patience barThreshold stuckLimit h inRange
  refine ⟨fun hp => setPort_port_above h hp, fun p hp => ?_⟩
  subst hp
  exact ⟨fun hs => setPort_port_not_off h hs,
    fun hs hout => setPort_without_config h hs (portConfig_of_not_inRange hout),
    fun k hs hin hk => setPort_with_config h hs (portConfig_of_inRange hin hk)⟩

end Sys2Proof.Machine
end

section
/-!
PROOFS. The scheduler's choice (O37). The eligible set stands in increasing ring id, so the first of its members after the
position, or else its first member, is the next one after the position with wrap; and its highest priority is that of a
member, so the members of that priority are never none where there is an ELIGIBLE descriptor.
-/
namespace Sys2Proof.Machine

variable {s : State} {p : PortId}

/-! ### The next ring after a position, with wrap (R50) -/

/-- R50: how far a ring id lies after a position, counting upward through 1 to 31 with wrap. -/
def wrapDistance (pos i : Nat) : Nat := if pos < i then i - pos else i + 31 - pos

/-- The first member of a list of rings after a position, or else its first member. -/
def nextAfter (pos : Nat) (rings : List SubId) : Option SubId := (rings.find? fun r => pos < r.val) <|> rings.head?

theorem nextAfter_eq_none_iff {pos : Nat} {rings : List SubId} : nextAfter pos rings = none ↔ rings = [] := by
  cases rings <;> simp [nextAfter]

theorem nextAfter_mem {pos : Nat} {rings : List SubId} {r : SubId} (h : nextAfter pos rings = some r) : r ∈ rings := by
  rcases (Option.orElse_eq_some _ _ _).1 h with hfind | ⟨-, hhead⟩
  · exact List.mem_of_find?_eq_some hfind
  · exact List.mem_of_head? hhead

/-- In a list of increasing ring ids, the next ring after a position is the nearest one: a ring after the position is nearer
than one that the count reaches only after its wrap. -/
theorem wrapDistance_nextAfter_le {pos : Nat} {rings : List SubId} {r i : SubId} (hs : rings.Pairwise (· < ·))
    (h : nextAfter pos rings = some r) (hi : i ∈ rings) : wrapDistance pos r.val ≤ wrapDistance pos i.val := by
  rcases (Option.orElse_eq_some _ _ _).1 h with hfind | ⟨hnone, hhead⟩
  · obtain ⟨hr, before, later, rfl, hbefore⟩ := List.find?_eq_some_iff_append.1 hfind
    have hr : pos < r.val := by simpa using hr
    have hlater : ∀ k ∈ later, r < k := (List.pairwise_cons.1 (List.pairwise_append.1 hs).2.1).1
    rcases List.mem_append.1 hi with hi | hi
    · have hpos : ¬ pos < i.val := by simpa using hbefore i hi
      simp only [wrapDistance, if_pos hr, if_neg hpos]
      omega
    · have hri : r.val ≤ i.val := (List.mem_cons.1 hi).elim (fun h => h ▸ le_rfl) fun h => (hlater i h).le
      simp only [wrapDistance, if_pos hr, if_pos (hr.trans_le hri)]
      omega
  · have hall : ∀ k ∈ rings, ¬ pos < k.val := by simpa using hnone
    obtain ⟨later, rfl⟩ := List.head?_eq_some_iff.1 hhead
    have hri : r.val ≤ i.val :=
      (List.mem_cons.1 hi).elim (fun h => h ▸ le_rfl) fun h => ((List.pairwise_cons.1 hs).1 i h).le
    simp only [wrapDistance, if_neg (hall r (List.mem_cons_self ..)), if_neg (hall i hi)]
    omega

/-! ### The eligible set and its highest priority (R48, R50) -/

theorem State.mem_eligible {r : SubId} : r ∈ s.eligible p ↔ s.inState p r .eligible = true := by
  simp [State.eligible, allSubs]

theorem State.eligible_increasing : (s.eligible p).Pairwise (· < ·) :=
  (List.sortedLT_finRange 32).pairwise.filter _

/-- The running maximum of a function over a list, from a first value on: it bounds that value and the function on the list,
and is one of these. -/
theorem foldl_max_spec {α β : Type} [LinearOrder β] (f : α → β) (l : List α) (b : β) :
    let m := l.foldl (fun q a => if q < f a then f a else q) b
    b ≤ m ∧ (∀ a ∈ l, f a ≤ m) ∧ (m = b ∨ ∃ a ∈ l, f a = m) := by
  induction l generalizing b with
  | nil => simp
  | cons a l ih =>
    obtain ⟨hb, hl, hm⟩ := ih (if b < f a then f a else b)
    simp only [List.foldl_cons, List.forall_mem_cons, List.exists_mem_cons_iff]
    split_ifs at hb hl hm ⊢ with ha
    · exact ⟨ha.le.trans hb, ⟨hb, hl⟩, .inr (hm.imp Eq.symm id)⟩
    · exact ⟨hb, ⟨(not_lt.1 ha).trans hb, hl⟩, hm.imp_right .inr⟩

theorem State.priorityOf_le_topPriority {r : SubId} (h : r ∈ s.eligible p) : s.priorityOf r ≤ s.topPriority p := by
  obtain ⟨-, hle, -⟩ := foldl_max_spec s.priorityOf (s.eligible p) 0
  exact hle r h

/-- The highest priority is a member's, as soon as there is a member: priority 0, from which the scheduler starts, is the
lowest. -/
theorem State.exists_topPriority {r : SubId} (h : r ∈ s.eligible p) :
    ∃ k ∈ s.eligible p, s.priorityOf k = s.topPriority p := by
  obtain ⟨-, -, h0 | hk⟩ := foldl_max_spec s.priorityOf (s.eligible p) 0
  · have htop : s.topPriority p = 0 := h0
    have hle := State.priorityOf_le_topPriority h
    exact ⟨r, h, by rw [htop] at hle ⊢; exact Fin.le_zero_iff.1 hle⟩
  · exact hk

/-! ### The scheduler's choice (R50) -/

/-- The members of the eligible set with its highest priority. -/
def State.topGroup (s : State) (p : PortId) : List SubId :=
  (s.eligible p).filter fun r => s.priorityOf r == s.topPriority p

theorem State.mem_topGroup {r : SubId} :
    r ∈ s.topGroup p ↔ s.inState p r .eligible = true ∧ s.priorityOf r = s.topPriority p := by
  simp [State.topGroup, State.mem_eligible]

theorem State.topGroup_increasing : (s.topGroup p).Pairwise (· < ·) := State.eligible_increasing.filter _

theorem State.topGroup_eq_nil_iff : s.topGroup p = [] ↔ ∀ r, s.inState p r .eligible = false := by
  simp only [List.eq_nil_iff_forall_not_mem, State.mem_topGroup]
  constructor
  · intro hnone r
    by_contra hr
    obtain ⟨k, hk, htop⟩ := State.exists_topPriority (State.mem_eligible.2 (Bool.eq_true_of_not_eq_false hr))
    exact hnone k ⟨State.mem_eligible.1 hk, htop⟩
  · intro hnone r hr
    simp [hnone r] at hr

theorem State.pick_eq : s.pick p = nextAfter (s.position p (s.topPriority p)) (s.topGroup p) := rfl

/-- Settles O37: the choice is the next ring after the position among the members of the highest priority. -/
theorem schedulerPicksNextInTopPriority : Obligations.SchedulerPicksNextInTopPriority := by
  intro s p
  refine ⟨by rw [State.pick_eq, nextAfter_eq_none_iff, State.topGroup_eq_nil_iff], fun r hpick => ?_⟩
  rw [State.pick_eq] at hpick
  obtain ⟨hr, htop⟩ := State.mem_topGroup.1 (nextAfter_mem hpick)
  rw [← htop] at hpick
  refine ⟨hr, fun i hi => ?_, fun i hi hp => ?_⟩
  · exact htop ▸ State.priorityOf_le_topPriority (State.mem_eligible.2 hi)
  · exact wrapDistance_nextAfter_le State.topGroup_increasing hpick (State.mem_topGroup.2 ⟨hi, hp.trans htop⟩)

end Sys2Proof.Machine
end

section
/-!
PROOFS. The end of an attempt (O47). First what a descriptor's completion is with the outcome that the health table is told;
then the fate by result, one lemma per fate, in the order in which R55 to R57 and R65 decide it.
-/
namespace Sys2Proof.Machine
open Sys2Proof.Safety

variable {s : State}

/-! ### The outcome that the health table is told (R62) -/

/-- R71 to R73: a target failure changes the health table and the port statistics alone. -/
theorem State.targetFailure_frame (q : PortId) (st : Station) :
    ∃ health ports, s.targetFailure q st = { s with health, ports } := by
  unfold State.targetFailure
  dsimp only
  split
  · exact ⟨_, _, rfl⟩
  · split_ifs <;> exact ⟨_, _, rfl⟩

/-- R62: an outcome changes what a target failure or a target success changes. -/
theorem State.tellHealth_frame (q : PortId) (d : Desc) (status : Status) :
    ∃ health ports, s.tellHealth q d status = { s with health, ports } := by
  have failure := s.targetFailure_frame q d.dest
  obtain ⟨_, success⟩ := s.targetSuccess_frame q d.dest
  unfold State.tellHealth
  split
  · split
    exacts [failure, failure, failure, failure, ⟨_, _, success⟩, ⟨_, _, success⟩, ⟨_, _, rfl⟩]
  · exact ⟨_, _, rfl⟩

theorem State.tellHealth_of_not_target {q : PortId} {d : Desc} {status : Status}
    (h : d.kind = .notice ∨ d.dest = (s.port q).config.station) : s.tellHealth q d status = s := by
  refine if_neg fun ⟨hk, hd⟩ => ?_
  rcases h with hn | ho
  · simp [hn] at hk
  · exact hd ho

/-- R62: these statuses hand no outcome to the health table. -/
theorem State.tellHealth_of_no_outcome {q : PortId} {d : Desc} {status : Status}
    (h : status = .aborted ∨ status = .expired ∨ status = .busStuck ∨ status = .clash) : s.tellHealth q d status = s := by
  rcases h with rfl | rfl | rfl | rfl <;> exact ite_self _

theorem State.tellHealth_failure {q : PortId} {d : Desc} {res : AttemptResult} (hk : d.kind = .send ∨ d.kind = .query)
    (ho : d.dest ≠ (s.port q).config.station) (hf : res.failed = true) (hc : res ≠ .clash) :
    s.tellHealth q d res.status = s.targetFailure q d.dest := by
  unfold State.tellHealth
  rw [if_pos ⟨hk, ho⟩]
  cases res with
  | noTarget | refused | framing | holdTimeout => rfl
  | clash => exact absurd rfl hc
  | busStuck | success | truncated => cases hf

theorem State.tellHealth_success {q : PortId} {d : Desc} {res : AttemptResult} (hk : d.kind = .send ∨ d.kind = .query)
    (ho : d.dest ≠ (s.port q).config.station) (hg : res = .success ∨ res = .truncated) :
    s.tellHealth q d res.status = s.targetSuccess q d.dest := by
  unfold State.tellHealth
  rw [if_pos ⟨hk, ho⟩]
  rcases hg with rfl | rfl <;> rfl

/-! ### A completion with the counts of its execution record (R61) -/

theorem State.execOf_withExec {r : SubId} {x : StagedXfer} {e : ExecRec} (ho : (s.sub r).occupancy = .staged) :
    (withExec s r x e).execOf r = some ({ x with exec := some e }, e) := by
  simp [withExec, State.execOf, State.stagedOf, ho]

/-- An execution record's update leaves the ABORT that may wait: that one is ring 0's. -/
theorem abortWaits_withExec {r : SubId} {x : StagedXfer} {e : ExecRec} {abort : Option (BitVec 16 × Status)}
    (h : AbortWaits s r abort) : AbortWaits (withExec s r x e) r abort := by
  cases abort with
  | none => exact h
  | some waits =>
    obtain ⟨hr, hrest⟩ := h
    have h0 : (withExec s r x e).sub 0 = s.sub 0 := State.setSub_sub_ne _ _ _ _ hr.symm
    exact ⟨hr, by rw [h0]; exact hrest⟩

/-- R61, R62, R67: a descriptor completes after the outcome that the health table is told. -/
theorem State.completeExec_told {r : SubId} {x : StagedXfer} {e : ExecRec} {q : PortId} {c : CplId}
    {abort : Option (BitVec 16 × Status)} {status : Status} {n : Nat} (he : s.execOf r = some (x, e))
    (hq : (s.sub r).port = some q) (hc : (s.sub r).completion = some c) (ha : AbortWaits s r abort) :
    s.completeExec r status n = completed (s.tellHealth q x.desc status) r c (execEntry s r x e status n) abort := by
  obtain ⟨-, -, ho, -⟩ := State.staged_of_execOf he
  obtain ⟨_, _, ht⟩ := s.tellHealth_frame q x.desc status
  simp only [State.completeExec, he, hq, ht]
  refine State.complete_eq_completed hc ho ?_
  cases abort <;> exact ha

/-- The record of an attempt that has ended: the attempt is counted up to 15, with its result and its byte count. -/
def ExecRec.ended (e : ExecRec) (last : Option AttemptResult) (n : Nat) : ExecRec :=
  { e with attempts := min 15 (e.attempts + 1), lastResult := last, lastBytes := n }

variable {r : SubId} {p : PortId} {c : CplId} {x : StagedXfer} {e : ExecRec} {abort : Option (BitVec 16 × Status)}

/-- R61, R62: a descriptor whose execution record has just been updated completes with the counts of that record. -/
theorem State.completeExec_withExec (he : s.execOf r = some (x, e)) (hq : (s.sub r).port = some p)
    (hc : (s.sub r).completion = some c) (ha : AbortWaits s r abort) (e1 : ExecRec) (status : Status) (n : Nat) :
    (withExec s r x e1).completeExec r status n =
      completed ((withExec s r x e1).tellHealth p x.desc status) r c (execEntry (withExec s r x e1) r x e1 status n)
        abort := by
  obtain ⟨-, -, ho, -⟩ := State.staged_of_execOf he
  have hsub : (withExec s r x e1).sub r = { s.sub r with staged := some (.xfer { x with exec := some e1 }) } :=
    State.setSub_sub_self ..
  exact State.completeExec_told (x := { x with exec := some e1 }) (State.execOf_withExec ho) (by rw [hsub, hq])
    (by rw [hsub, hc]) (abortWaits_withExec ha)

/-! ### The fate by result (R53 to R57, R65) -/

/-- R53: BUS_STUCK is neither a failed attempt nor a success. -/
theorem AttemptResult.failed_eq_true_iff {res : AttemptResult} :
    res.failed = true ↔ res ≠ .busStuck ∧ ¬ (res = .success ∨ res = .truncated) := by
  cases res <;> decide

theorem AttemptResult.failed_of_success {res : AttemptResult} (h : res = .success ∨ res = .truncated) :
    res.failed = false := by
  rcases h with rfl | rfl <;> rfl

theorem saturate_countCap_eq_min {n : Nat} (h : n ≤ 15) : saturate Config.countCap n = min 15 (n + 1) :=
  saturate_eq_min h

section
variable {res : AttemptResult} {moved n : Nat} (he : s.execOf r = some (x, e)) (h15 : e.attempts ≤ 15)
  (hn : bytesMoved x.desc.kind res moved e.replyArea = n)
include he h15

/-- R65: with an abort pending, the end of an attempt that has not met a stuck bus completes the descriptor ABORTED; an
attempt without a result leaves the last one as it was. -/
theorem State.endAttempt_aborted {got : Option AttemptResult} {kept : Nat}
    (hk : (if x.desc.kind = .query then 0 else moved) = kept) (hs : got.getD .framing ≠ .busStuck)
    (hab : s.abortPending r = true) :
    s.endAttempt r got moved =
      (withExec s r x (e.ended (got <|> e.lastResult) kept)).completeExec r .aborted kept := by
  simp only [State.endAttempt, he, saturate_countCap_eq_min h15, hk]
  rw [if_neg hs, if_pos hab]
  rfl

include hn

/-- R56: a stuck bus completes the descriptor whatever else holds. -/
theorem State.endAttempt_busStuck (hs : res = .busStuck) :
    s.endAttempt r (some res) moved = (withExec s r x (e.ended (some res) n)).completeExec r .busStuck n := by
  simp only [State.endAttempt, he, saturate_countCap_eq_min h15, Option.getD_some, hn]
  rw [if_pos hs]
  rfl

section
variable (hab : s.abortPending r = false)
include hab

/-- R57: a failed attempt past the deadline completes the descriptor EXPIRED. -/
theorem State.endAttempt_expired (hf : res.failed = true) (hd : e.deadlinePassed = true) :
    s.endAttempt r (some res) moved = (withExec s r x (e.ended (some res) n)).completeExec r .expired n := by
  obtain ⟨hs, -⟩ := AttemptResult.failed_eq_true_iff.1 hf
  simp only [State.endAttempt, he, saturate_countCap_eq_min h15, Option.getD_some, hn]
  rw [if_neg hs, if_neg (Bool.eq_false_iff.1 hab), if_pos hf, if_pos hd]
  rfl

/-- R55: a failed attempt that reaches the limit completes the descriptor with its result. -/
theorem State.endAttempt_limit (hf : res.failed = true) (hd : e.deadlinePassed = false)
    (hl : e.limit ≠ 0 ∧ e.limit ≤ min 15 (e.attempts + 1)) :
    s.endAttempt r (some res) moved = (withExec s r x (e.ended (some res) n)).completeExec r res.status n := by
  obtain ⟨hs, -⟩ := AttemptResult.failed_eq_true_iff.1 hf
  simp only [State.endAttempt, he, saturate_countCap_eq_min h15, Option.getD_some, hn]
  rw [if_neg hs, if_neg (Bool.eq_false_iff.1 hab), if_pos hf, if_neg (Bool.eq_false_iff.1 hd), if_pos hl]
  rfl

/-- R55: a failed attempt below the limit, or without one, makes the descriptor ELIGIBLE again. -/
theorem State.endAttempt_again (hf : res.failed = true) (hd : e.deadlinePassed = false)
    (hl : ¬ (e.limit ≠ 0 ∧ e.limit ≤ min 15 (e.attempts + 1))) :
    s.endAttempt r (some res) moved = withExec s r x { e.ended (some res) n with state := .eligible } := by
  obtain ⟨hs, -⟩ := AttemptResult.failed_eq_true_iff.1 hf
  simp only [State.endAttempt, he, saturate_countCap_eq_min h15, Option.getD_some, hn]
  rw [if_neg hs, if_neg (Bool.eq_false_iff.1 hab), if_pos hf, if_neg (Bool.eq_false_iff.1 hd), if_neg hl]
  rfl

/-- R55: a QUERY that has gained reply bytes stores them before it completes. -/
theorem State.endAttempt_stores (hg : res = .success ∨ res = .truncated) (hq : x.desc.kind = .query ∧ 1 ≤ n) :
    s.endAttempt r (some res) moved = withExec s r x { e.ended (some res) n with state := .storing } := by
  have hs : res ≠ .busStuck := by rcases hg with rfl | rfl <;> decide
  simp only [State.endAttempt, he, saturate_countCap_eq_min h15, Option.getD_some, hn]
  rw [if_neg hs, if_neg (Bool.eq_false_iff.1 hab), if_neg (Bool.eq_false_iff.1 (AttemptResult.failed_of_success hg)),
    if_pos hq]
  rfl

/-- R55: every other success completes the descriptor with its result. -/
theorem State.endAttempt_succeeds (hg : res = .success ∨ res = .truncated) (hq : ¬ (x.desc.kind = .query ∧ 1 ≤ n)) :
    s.endAttempt r (some res) moved = (withExec s r x (e.ended (some res) n)).completeExec r res.status n := by
  have hs : res ≠ .busStuck := by rcases hg with rfl | rfl <;> decide
  simp only [State.endAttempt, he, saturate_countCap_eq_min h15, Option.getD_some, hn]
  rw [if_neg hs, if_neg (Bool.eq_false_iff.1 hab), if_neg (Bool.eq_false_iff.1 (AttemptResult.failed_of_success hg)),
    if_neg hq]
  rfl

end
end

/-- Settles O47, by the fates in the order of R55 to R57 and R65. -/
theorem attemptEndDecidesFate : Obligations.AttemptEndDecidesFate := by
  intro s r p c x e res moved abort he hp hc ha h15 d good own n e1 s1 ends told
  have hn : bytesMoved x.desc.kind res moved e.replyArea = n := rfl
  have completes := State.completeExec_withExec he hp hc ha
  refine ⟨fun hs => ?stuck, fun hab hbad hs => ?failed, fun hab hg => ?succeeded, fun hab => ?pending⟩
  case stuck =>
    have hfate := State.endAttempt_busStuck he h15 hn hs
    rwa [completes, State.tellHealth_of_no_outcome (by simp)] at hfate
  case failed =>
    have hf : res.failed = true := AttemptResult.failed_eq_true_iff.2 ⟨hs, hbad⟩
    refine ⟨fun hd => ?expired, fun hd h0 hl => ?limit, fun hd hl => ?again⟩
    case expired =>
      have hfate := State.endAttempt_expired he h15 hn hab hf hd
      rwa [completes, State.tellHealth_of_no_outcome (by simp)] at hfate
    case limit =>
      have hfate : ends (told (s1.tellHealth p d res.status)) :=
        (State.endAttempt_limit he h15 hn hab hf hd ⟨h0, hl⟩).trans (completes ..)
      refine ⟨fun hk hclash hown => ?_, fun hquiet => ?_⟩
      · rwa [State.tellHealth_failure (s := s1) hk hown hf hclash] at hfate
      · rcases hquiet with hk | hclash | hown
        · rwa [State.tellHealth_of_not_target (s := s1) (.inl hk)] at hfate
        · rwa [State.tellHealth_of_no_outcome (by simp [hclash, AttemptResult.status])] at hfate
        · rwa [State.tellHealth_of_not_target (s := s1) (.inr hown)] at hfate
    case again =>
      refine State.endAttempt_again he h15 hn hab hf hd fun ⟨h0, hle⟩ => ?_
      exact hl.elim h0 (Nat.not_lt.2 hle)
  case succeeded =>
    have hends : (d.kind = .query → n = 0) → ends (told (s1.tellHealth p d res.status)) := fun h0 =>
      (State.endAttempt_succeeds he h15 hn hab hg fun ⟨hk, h1⟩ => Nat.ne_of_gt h1 (h0 hk)).trans
        (completes ..)
    refine ⟨fun hk h1 => State.endAttempt_stores he h15 hn hab hg ⟨hk, h1⟩, fun hk hown => ?_, fun hk => ?_⟩
    · have hfate := hends (by rcases hk with hk | hk <;> simp [hk])
      rwa [State.tellHealth_success (s := s1) (hk.imp_right And.left) hown hg] at hfate
    · have hfate := hends (by rcases hk with hk | ⟨hk | hk, -⟩ <;> simp [hk])
      rwa [State.tellHealth_of_not_target (s := s1) (hk.imp_right And.right)] at hfate
  case pending =>
    intro kept aborted
    refine ⟨fun hs => ?_, ?_⟩
    · have hfate := State.endAttempt_aborted (got := some res) (moved := moved) he h15 rfl hs hab
      rwa [completes, State.tellHealth_of_no_outcome (by simp)] at hfate
    · have hfate := State.endAttempt_aborted (got := none) (moved := moved) he h15 rfl (by decide) hab
      rwa [completes, State.tellHealth_of_no_outcome (by simp)] at hfate

end Sys2Proof.Machine
end

section
/-!
PROOFS. The health table (O35, O36). First which entry a port and station name, and what the table is without it; then
CLEAR_HEALTH, and READ_HEALTH by the bytes of its records; then a target failure and a target success by what they find.
-/
namespace Sys2Proof.Machine
open Sys2Proof.Safety

variable {s : State} {p : PortId} {st : Station}

/-! ### The entry of a port and station (R69) -/

theorem HealthEntry.names_iff {e : HealthEntry} : e.names p st = true ↔ e.port = p ∧ e.station = st := by
  simp [HealthEntry.names]

/-- A station number of the 10-bit field names the entries that hold it. -/
theorem HealthEntry.names_ofNat {station : Nat} (hs : station < 1024) (e : HealthEntry) :
    e.names p (BitVec.ofNat 10 station) = (e.port == p && e.station.toNat == station) := by
  have hst : e.station = BitVec.ofNat 10 station ↔ e.station.toNat = station := by
    rw [← BitVec.toNat_inj, BitVec.toNat_ofNat, Nat.mod_eq_of_lt hs]
  rw [Bool.eq_iff_iff, HealthEntry.names_iff, hst]
  simp

theorem State.healthEntry_eq_none (h : ∀ e ∈ s.health, ¬ (e.port = p ∧ e.station = st)) :
    s.healthEntry p st = none :=
  List.find?_eq_none.2 fun e he hn => h e he (HealthEntry.names_iff.1 hn)

section
variable {before after : List HealthEntry} {e : HealthEntry} (hb : HealthBounded s)
  (hh : s.health = before ++ e :: after) (hp : e.port = p) (hs : e.station = st)
include hb hh hp hs

/-- R68: no two entries have the same port and station. -/
theorem State.names_others : ∀ x ∈ before ++ after, x.names p st = false := by
  obtain ⟨-, hdistinct, -⟩ := hb
  rw [hh, List.map_append, List.map_cons, List.nodup_middle, ← List.map_append, List.nodup_cons] at hdistinct
  obtain ⟨hother, -⟩ := hdistinct
  refine fun x hx => Bool.eq_false_iff.2 fun hn => hother ?_
  obtain ⟨hxp, hxs⟩ := HealthEntry.names_iff.1 hn
  exact List.mem_map.2 ⟨x, hx, by rw [hxp, hxs, hp, hs]⟩

/-- R69: an entry with the port and station is the one that they name. -/
theorem State.healthEntry_eq_some : s.healthEntry p st = some e := by
  refine List.find?_eq_some_iff_append.2 ⟨HealthEntry.names_iff.2 ⟨hp, hs⟩, before, after, hh, fun x hx => ?_⟩
  rw [State.names_others hb hh hp hs x (List.mem_append_left _ hx)]
  rfl

/-- R71, R74: the table without the entry of a port and station keeps the others in their order. -/
theorem State.health_filter_not_names : s.health.filter (fun x => !x.names p st) = before ++ after := by
  have hkept : (before ++ after).filter (fun x => !x.names p st) = before ++ after :=
    List.filter_eq_self.2 fun x hx => by rw [State.names_others hb hh hp hs x hx]; rfl
  have hgone : (!e.names p st) ≠ true := by simp [HealthEntry.names_iff.2 ⟨hp, hs⟩]
  rw [hh, List.filter_append, List.filter_cons, if_neg hgone, ← List.filter_append, hkept]

end

/-! ### CLEAR_HEALTH (R77) -/

section
variable {tag : BitVec 16}

theorem exec_clearHealth_eq : exec .clearHealth s = execClearHealth s := rfl

/-- A new health table leaves the command that ring 0 carries. -/
theorem carries_health {cmd : AdminCmd} {health : List HealthEntry} (h : Carries s tag cmd) :
    Carries { s with health } tag cmd := h

theorem clearHealth_port_above {port scope station : Nat} (h : Carries s tag (.clearHealth port scope station))
    (hp : 4 ≤ port) : exec .clearHealth s = .next (commandEnds s tag .badParameter) := by
  rw [exec_clearHealth_eq, execClearHealth, freshCmd_of_carries h]
  simp only [numbered_eq_none hp, finishAdmin_of_carries h]

theorem clearHealth_all {station : Nat} (h : Carries s tag (.clearHealth p.val 2 station)) :
    exec .clearHealth s =
      .next (commandEnds { s with health := s.health.filter fun e => e.port != p } tag .success) := by
  rw [exec_clearHealth_eq, execClearHealth, freshCmd_of_carries h]
  simp only [numbered_val, if_neg (show (2 : Nat) ≠ 1 by decide), if_true, finishAdmin_of_carries (carries_health h)]

variable {scope station : Nat} (h : Carries s tag (.clearHealth p.val scope station))
include h

theorem clearHealth_bad_scope (h1 : scope ≠ 1) (h2 : scope ≠ 2) :
    exec .clearHealth s = .next (commandEnds s tag .badParameter) := by
  rw [exec_clearHealth_eq, execClearHealth, freshCmd_of_carries h]
  simp only [numbered_val, if_neg h1, if_neg h2, finishAdmin_of_carries h]

theorem clearHealth_bad_station (h1 : scope = 1) (hs : 1022 < station) :
    exec .clearHealth s = .next (commandEnds s tag .badParameter) := by
  rw [exec_clearHealth_eq, execClearHealth, freshCmd_of_carries h]
  simp only [numbered_val, if_pos h1, if_pos hs, finishAdmin_of_carries h]

theorem clearHealth_one_absent (h1 : scope = 1) (hs : station ≤ 1022)
    (hnone : ∀ e ∈ s.health, ¬ (e.port = p ∧ e.station.toNat = station)) :
    exec .clearHealth s = .next (commandEnds s tag .notFound) := by
  have hentry : (s.healthEntry p (BitVec.ofNat 10 station)).isSome = false := by
    simpa [State.healthEntry, HealthEntry.names_ofNat (show station < 1024 by omega)] using hnone
  rw [exec_clearHealth_eq, execClearHealth, freshCmd_of_carries h]
  simp only [numbered_val, if_pos h1, if_neg (Nat.not_lt.2 hs), hentry, if_neg Bool.false_ne_true,
    finishAdmin_of_carries h]

theorem clearHealth_one_present (h1 : scope = 1) (hs : station ≤ 1022)
    (hsome : ∃ e ∈ s.health, e.port = p ∧ e.station.toNat = station) :
    exec .clearHealth s =
      .next
        (commandEnds
          { s with health := s.health.filter fun e => !(e.port == p && e.station.toNat == station) } tag .success) := by
  have hnames := HealthEntry.names_ofNat (p := p) (show station < 1024 by omega)
  have hentry : (s.healthEntry p (BitVec.ofNat 10 station)).isSome = true := by
    simpa [State.healthEntry, hnames] using hsome
  rw [exec_clearHealth_eq, execClearHealth, freshCmd_of_carries h]
  simp only [numbered_val, if_pos h1, if_neg (Nat.not_lt.2 hs), hentry, if_true, hnames,
    finishAdmin_of_carries (carries_health h)]

end

/-! ### The bytes of READ_HEALTH (R79, 11.6) -/

/-- Records of one length stand one after the other. -/
theorem byteAt_flatMap {α : Type} {f : α → List Byte} {k j : Nat} (hf : ∀ x, (f x).length = k) (hj : j < k) :
    ∀ {l : List α} {i : Nat} {x : α}, l[i]? = some x → byteAt (l.flatMap f) (k * i + j) = byteAt (f x) j
  | y :: l, 0, x, h => by
    obtain rfl : y = x := by simpa using h
    simp [byteAt, List.getElem?_append_left (show j < (f y).length by rw [hf]; exact hj)]
  | y :: l, i + 1, x, h => by
    have hskip : k * (i + 1) + j = (f y).length + (k * i + j) := by rw [hf, Nat.mul_succ]; omega
    rw [← byteAt_flatMap hf hj (l := l) (i := i) (by simpa using h), hskip]
    simp [byteAt, List.getElem?_append_right]

/-- R185: the high and the low byte of a word make the word. -/
theorem extractLsb'_append_low_high (v : BitVec 16) : v.extractLsb' 8 8 ++ v.extractLsb' 0 8 = v := by
  rw [BitVec.extractLsb'_append_extractLsb'_eq_extractLsb' (by rfl)]
  exact BitVec.extractLsb'_eq_self

theorem healthRecord_length (e : HealthEntry) : (healthRecord e).length = 4 := rfl

theorem le16At_healthRecord (e : HealthEntry) : le16At (healthRecord e) 0 = e.station.setWidth 16 :=
  extractLsb'_append_low_high _

theorem byteAt_healthRecord_port (e : HealthEntry) : (byteAt (healthRecord e) 2).toNat = e.port.val :=
  Nat.mod_eq_of_lt (e.port.isLt.trans (by decide))

/-- R79: the state code takes the low half of the last byte and the failed count the high half. -/
theorem byteAt_healthRecord_state {e : HealthEntry} (he : e.failed ≤ 15) :
    (byteAt (healthRecord e) 3).toNat = e.state.code + 16 * e.failed := by
  have hcode : e.state.code ≤ 3 := by cases e.state <;> decide
  exact Nat.mod_eq_of_lt (by omega)

theorem length_flatMap_healthRecord (l : List HealthEntry) : (l.flatMap healthRecord).length = 4 * l.length := by
  simp [List.length_flatMap, healthRecord_length, Nat.mul_comm]

/-- R79: the record of the entry at a place of the table's order stands at that place of the buffer. -/
theorem flatMap_healthRecord_fields {l : List HealthEntry} {i : Nat} {e : HealthEntry} (h : l[i]? = some e) :
    le16At (l.flatMap healthRecord) (4 * i) = e.station.setWidth 16 ∧
    (byteAt (l.flatMap healthRecord) (4 * i + 2)).toNat = e.port.val ∧
    (e.failed ≤ 15 → (byteAt (l.flatMap healthRecord) (4 * i + 3)).toNat = e.state.code + 16 * e.failed) := by
  have byte : ∀ j < 4, byteAt (l.flatMap healthRecord) (4 * i + j) = byteAt (healthRecord e) j :=
    fun j hj => byteAt_flatMap healthRecord_length hj h
  refine ⟨?_, ?_, fun he => ?_⟩
  · exact (congrArg₂ _ (byte 1 (by decide)) (byte 0 (by decide))).trans (le16At_healthRecord e)
  · rw [byte 2 (by decide), byteAt_healthRecord_port]
  · rw [byte 3 (by decide), byteAt_healthRecord_state he]

/-! ### READ_HEALTH and the end of its write (R79) -/

section
variable {tag : BitVec 16}

theorem exec_readHealth_eq : exec .readHealth s = execReadHealth s := rfl

theorem exec_healthWriteEnd_eq {write : WriteEnd} :
    exec (.healthWriteEnd write) s = execHealthWriteEnd write s := rfl

section
variable {buffer : Addr} (h : Carries s tag (.readHealth buffer))
include h

theorem readHealth_misaligned (ha : buffer.toNat % 4 ≠ 0) :
    exec .readHealth s = .next (commandEnds s tag .badParameter) := by
  have hbad : alignedTo 4 buffer = false := by simp [alignedTo, ha]
  rw [exec_readHealth_eq, execReadHealth, freshCmd_of_carries h]
  simp only [hbad, Bool.not_false, if_true, finishAdmin_of_carries h]

theorem readHealth_empty (ha : buffer.toNat % 4 = 0) (he : s.health = []) :
    exec .readHealth s = .next (commandEnds s tag .success) := by
  have hok : alignedTo 4 buffer = true := by simp [alignedTo, ha]
  rw [exec_readHealth_eq, execReadHealth, freshCmd_of_carries h]
  simp only [hok, Bool.not_true, if_neg Bool.false_ne_true, if_pos he, finishAdmin_of_carries h]

theorem readHealth_begins_write (ha : buffer.toNat % 4 = 0) (hne : s.health ≠ []) :
    exec .readHealth s =
      .next
        { s with
          admin := .healthWrite s.health.length { address := buffer, bytes := s.health.flatMap healthRecord } } := by
  have hok : alignedTo 4 buffer = true := by simp [alignedTo, ha]
  rw [exec_readHealth_eq, execReadHealth, freshCmd_of_carries h]
  simp only [hok, Bool.not_true, if_neg Bool.false_ne_true, if_neg hne]

end

/-- R79: the status and result word with which the end of the snapshot's write completes the command. -/
theorem healthWriteEnd_ends {n : Nat} {w : DmaWrite} {cmd : AdminCmd} (hl : s.live = true)
    (ha : s.admin = .healthWrite n w) (ho : (s.sub 0).occupancy = .staged)
    (hs : (s.sub 0).staged = some (.admin tag cmd)) (hc : (s.sub 0).completion = some 0) :
    exec (.healthWriteEnd .ok) s = .next (commandEnds s tag .success (BitVec.ofNat 32 n)) ∧
    exec (.healthWriteEnd .fault) s = .next (commandEnds s tag .storeFault) := by
  constructor <;>
    simp only [exec_healthWriteEnd_eq, execHealthWriteEnd, ha, hl, if_true, finishAdmin_of_staged ho hs hc]

end

/-- Settles O35: CLEAR_HEALTH by its first check that fails, and READ_HEALTH by its buffer and its table. -/
theorem healthTableClearedAndRead : Obligations.HealthTableClearedAndRead := by
  refine ⟨fun s tag port scope station h => ⟨fun hbad => ?checks, fun p hp => ?clears⟩,
    fun s tag => ⟨fun buffer h => ⟨readHealth_misaligned h, readHealth_empty h, fun ha hne => ?reads⟩,
      fun n w cmd => healthWriteEnd_ends⟩⟩
  case checks =>
    rcases Nat.lt_or_ge 3 port with hp | hp
    · exact clearHealth_port_above h hp
    · obtain ⟨p, rfl⟩ : ∃ p : PortId, p.val = port := ⟨⟨port, Nat.lt_succ_of_le hp⟩, rfl⟩
      rcases hbad with habove | ⟨h1, h2⟩ | ⟨h1, hs⟩
      · exact absurd habove (Nat.not_lt.2 hp)
      · exact clearHealth_bad_scope h h1 h2
      · exact clearHealth_bad_station h h1 hs
  case clears =>
    subst hp
    refine ⟨clearHealth_one_absent h, clearHealth_one_present h, fun h2 => ?_⟩
    subst h2
    exact clearHealth_all h
  case reads =>
    exact ⟨_, readHealth_begins_write h ha hne, length_flatMap_healthRecord _, fun i e => flatMap_healthRecord_fields⟩

/-! ### A target failure and a target success (R71 to R74) -/

/-- R71, R72: the entry that a failed target without one gets. -/
def freshFailure (s : State) (p : PortId) (st : Station) : HealthEntry :=
  { port := p, station := st, state := judged 1 (s.port p).config.barThreshold, failed := 1 }

section
variable (hn : s.healthEntry p st = none)
include hn

/-- R72: a table that is not full takes a new entry at its tail. -/
theorem State.targetFailure_of_room (hroom : s.health.length < 64) :
    s.targetFailure p st = { s with health := s.health ++ [freshFailure s p st] } := by
  simp only [State.targetFailure, hn]
  exact if_pos hroom

/-- R73: a full table gives the place of its first GOOD entry, the least recently touched one. -/
theorem State.targetFailure_evicts {before after : List HealthEntry} {e : HealthEntry} (hfull : s.health.length = 64)
    (hh : s.health = before ++ e :: after) (he : e.state = .good) (hbefore : ∀ x ∈ before, x.state ≠ .good) :
    s.targetFailure p st = { s with health := before ++ after ++ [freshFailure s p st] } := by
  have hany : s.health.any (·.state == .good) = true := by simp [hh, he]
  have hevict : s.health.eraseP (·.state == .good) = before ++ after := by
    rw [hh, List.eraseP_append_right _ (by simpa using hbefore), List.eraseP_cons_of_pos (by simp [he])]
  simp only [State.targetFailure, hn]
  rw [if_neg (show ¬ s.health.length < Config.healthCapacity from Nat.not_lt.2 hfull.ge), if_pos hany, hevict]
  rfl

/-- R73: a full table without a GOOD entry counts the failure alone. -/
theorem State.targetFailure_untracked (hfull : s.health.length = 64) (hgood : ∀ e ∈ s.health, e.state ≠ .good) :
    s.targetFailure p st = s.count p .healthUntracked := by
  have hany : ¬ s.health.any (·.state == .good) = true := by simpa using hgood
  simp only [State.targetFailure, hn]
  rw [if_neg (show ¬ s.health.length < Config.healthCapacity from Nat.not_lt.2 hfull.ge), if_neg hany]

/-- R74: a target success without an entry changes nothing. -/
theorem State.targetSuccess_of_none : s.targetSuccess p st = s := by
  simp only [State.targetSuccess, hn]

end

/-- R74: a target success makes the entry GOOD with failed count 0 and moves it to the tail. -/
theorem State.targetSuccess_of_entry {e : HealthEntry} (h : s.healthEntry p st = some e) :
    s.targetSuccess p st =
      { s with
        health := s.health.filter (fun x => !x.names p st) ++ [{ e with state := .good, failed := 0 }] } := by
  simp only [State.targetSuccess, h]

/-- Settles O36: by whether the target has an entry and, for a failure without one, by what the table holds. -/
theorem outcomesUpdateHealthTable : Obligations.OutcomesUpdateHealthTable := by
  refine ⟨fun s p st hb => ⟨fun before e after hh hp hs => ?raised, fun habsent hroom => ?created,
      fun before e after habsent hfull hh he hbefore => ?evicted, fun habsent hfull hgood => ?untracked⟩,
    fun s p st hb => ⟨fun before e after hh hp hs => ?good, fun habsent => ?unchanged⟩⟩
  case raised =>
    rw [State.targetFailure_of_entry (State.healthEntry_eq_some hb hh hp hs), State.health_filter_not_names hb hh hp hs]
    obtain ⟨-, -, hfailed⟩ := hb
    rw [saturate_countCap_eq_min (hfailed e (by simp [hh]))]
    subst hp hs
    rfl
  case created => exact State.targetFailure_of_room (State.healthEntry_eq_none habsent) hroom
  case evicted => exact State.targetFailure_evicts (State.healthEntry_eq_none habsent) hfull hh he hbefore
  case untracked => exact State.targetFailure_untracked (State.healthEntry_eq_none habsent) hfull hgood
  case good =>
    rw [State.targetSuccess_of_entry (State.healthEntry_eq_some hb hh hp hs), State.health_filter_not_names hb hh hp hs]
    subst hp hs
    rfl
  case unchanged => exact State.targetSuccess_of_none (State.healthEntry_eq_none habsent)

end Sys2Proof.Machine
end

section
/-!
PROOFS. The match table (O33). First what the checks of SET_MATCH say of a kind set, of a ring byte and of the fields an
action uses; then all of the checks together against R84 and R99; then SET_MATCH and CLEAR_MATCH by their outcomes.
-/
namespace Sys2Proof.Machine
open Sys2Proof.Safety

variable {s : State} {tag : BitVec 16} {a : Action}

/-! ### The kinds that an action suits (R84) -/

theorem FrameKind.bit_lt (k : FrameKind) : k.bit < 3 := by
  cases k <;> decide

/-- Every bit of a kind set is that of a kind. -/
theorem FrameKind.exists_bit {i : Nat} (hi : i < 3) : ∃ k : FrameKind, k.bit = i :=
  match i, hi with
  | 0, _ => ⟨.send, rfl⟩
  | 1, _ => ⟨.query, rfl⟩
  | 2, _ => ⟨.notice, rfl⟩

/-- A kind set lies within another exactly when each of its kinds is one of the other's. -/
theorem kindSet_within_iff {kinds others : BitVec 3} :
    kinds &&& ~~~others = 0 ↔ ∀ k : FrameKind, kinds.getLsbD k.bit = true → others.getLsbD k.bit = true := by
  constructor
  · intro h k hk
    have hbit := congrArg (·.getLsbD k.bit) h
    simpa [hk, k.bit_lt] using hbit
  · intro h
    refine BitVec.eq_of_getLsbD_eq fun i hi => ?_
    obtain ⟨k, rfl⟩ := FrameKind.exists_bit hi
    simpa [hi] using h k

/-- R84: the actions that each kind of frame suits. -/
theorem Action.suits_bit_iff (k : FrameKind) :
    a.suits.getLsbD k.bit = true ↔
      (a = .deliver ∧ k ≠ .query) ∨ (a = .replySlot ∧ k = .query) ∨ (a = .slotWrite ∧ k = .send) ∨
        (a = .defer ∧ k = .query) ∨ a = .refuse := by
  cases a <;> cases k <;> decide

/-- R83: code 0 and the codes above 5 are no action's. -/
theorem Action.ofCode_eq_none {code : Nat} (h : code = 0 ∨ 5 < code) : Action.ofCode code = none :=
  match code, h with
  | 0, _ => rfl
  | _ + 6, _ => rfl

/-! ### The rings and slots that an action uses (R99, checks 4 and 5) -/

/-- A byte is the number of a receive ring that is ACTIVE. -/
def NamesActiveRing (s : State) (b : Byte) : Prop := ∃ r : RcvId, r.val = b.toNat ∧ (s.rcv r).state = .active

theorem State.ringActive_iff {b : Byte} : s.ringActive b = true ↔ NamesActiveRing s b := by
  rw [State.ringActive, Bool.and_eq_true, decide_eq_true_eq, beq_iff_eq]
  constructor
  · rintro ⟨hb, hactive⟩
    have hr : ringOfByte b = ⟨b.toNat, by omega⟩ := ringOfByte_eq rfl
    exact ⟨_, rfl, hr ▸ hactive⟩
  · rintro ⟨r, hr, hactive⟩
    exact ⟨by omega, by rwa [ringOfByte_eq hr]⟩

section
variable {ports : BitVec 4} {kinds : BitVec 3} {targetRing slot notifyRing expiry : Byte} {present : Bool}
  {sourceValue sourceMask : Nat}

theorem State.matchTargetsOk_iff :
    s.matchTargetsOk a targetRing slot notifyRing present = true ↔
      (a = .deliver ∨ a = .defer → NamesActiveRing s targetRing) ∧
      (a = .replySlot ∨ a = .slotWrite → slot.toNat ≤ 31 ∧ (present = true → NamesActiveRing s notifyRing)) := by
  have hnotify : (!present || s.ringActive notifyRing) = true ↔ (present = true → NamesActiveRing s notifyRing) := by
    rw [← State.ringActive_iff]
    cases present <;> simp
  cases a <;> simp [State.matchTargetsOk, State.ringActive_iff, hnotify]

/-! ### All the checks of SET_MATCH after the index and the action's code (R84, R99) -/

/-- R99: the fields of SET_MATCH pass the checks for an action. -/
def MatchFieldsPass (s : State) (a : Action) (ports : BitVec 4) (kinds : BitVec 3) (targetRing slot notifyRing : Byte)
    (present : Bool) (expiry : Byte) (sourceValue sourceMask : Nat) : Prop :=
  ports ≠ 0 ∧ kinds ≠ 0 ∧
  (∀ k : FrameKind, kinds.getLsbD k.bit = true →
    (a = .deliver ∧ k ≠ .query) ∨ (a = .replySlot ∧ k = .query) ∨ (a = .slotWrite ∧ k = .send) ∨
      (a = .defer ∧ k = .query) ∨ a = .refuse) ∧
  sourceValue ≤ 1023 ∧ sourceMask ≤ 1023 ∧ (a = .defer → expiry.toNat ≤ 1) ∧
  (a = .deliver ∨ a = .defer → NamesActiveRing s targetRing) ∧
  (a = .replySlot ∨ a = .slotWrite → slot.toNat ≤ 31 ∧ (present = true → NamesActiveRing s notifyRing))

/-- R99: the fields pass exactly when none of the command's three groups of checks fails. -/
theorem matchFieldsPass_iff :
    MatchFieldsPass s a ports kinds targetRing slot notifyRing present expiry sourceValue sourceMask ↔
      ¬ (ports = 0 ∨ kinds = 0 ∨ kinds &&& ~~~a.suits ≠ 0) ∧
      ¬ (1023 < sourceValue ∨ 1023 < sourceMask ∨ (a = .defer ∧ 1 < expiry.toNat)) ∧
      s.matchTargetsOk a targetRing slot notifyRing present = true := by
  simp only [MatchFieldsPass, State.matchTargetsOk_iff, ← Action.suits_bit_iff, ← kindSet_within_iff, not_or, not_and,
    not_not, not_lt, ne_eq, and_assoc]

/-! ### SET_MATCH (R99) -/

/-- R99: the entry that SET_MATCH writes. -/
def newMatchEntry (a : Action) (ports : BitVec 4) (kinds : BitVec 3)
    (channelValue channelMask targetRing slot notifyRing : Byte) (present : Bool) (expiry : Byte)
    (sourceValue sourceMask : Nat) : MatchEntry :=
  { valid := true, ports, kinds, channelValue, channelMask, sourceValue := BitVec.ofNat 10 sourceValue,
    sourceMask := BitVec.ofNat 10 sourceMask, action := some a, targetRing, slot,
    notifyRing := if present then some notifyRing else none, expiry }

theorem exec_setMatch_eq : exec .setMatch s = execSetMatch s := rfl

/-- An entry's update leaves the command that ring 0 carries. -/
theorem carries_setEntry {cmd : AdminCmd} {i : MatchId} {x : MatchEntry} (h : Carries s tag cmd) :
    Carries (s.setEntry i x) tag cmd := h

variable {index action : Nat} {channelValue channelMask : Byte}
  (h : Carries s tag (.setMatch index action ports kinds channelValue channelMask targetRing slot notifyRing present expiry
    sourceValue sourceMask))
include h

theorem setMatch_index_above (hi : 32 ≤ index) : exec .setMatch s = .next (commandEnds s tag .badParameter) := by
  rw [exec_setMatch_eq, execSetMatch, freshCmd_of_carries h]
  simp only [numbered_eq_none hi, finishAdmin_of_carries h]

theorem setMatch_without_action (ha : Action.ofCode action = none) :
    exec .setMatch s = .next (commandEnds s tag .badParameter) := by
  rw [exec_setMatch_eq, execSetMatch, freshCmd_of_carries h]
  simp only [ha, finishAdmin_of_carries h]
  cases numbered 32 index <;> rfl

theorem setMatch_fails {i : MatchId} (hi : i.val = index) (ha : Action.ofCode action = some a)
    (hfail : ¬ MatchFieldsPass s a ports kinds targetRing slot notifyRing present expiry sourceValue sourceMask) :
    exec .setMatch s = .next (commandEnds s tag .badParameter) := by
  subst hi
  rw [matchFieldsPass_iff] at hfail
  rw [exec_setMatch_eq, execSetMatch, freshCmd_of_carries h]
  simp only [numbered_val, ha, finishAdmin_of_carries h]
  split
  · rfl
  next hkinds =>
    split
    · rfl
    next hsource => rw [if_neg fun htargets => hfail ⟨hkinds, hsource, htargets⟩]

theorem setMatch_passes {i : MatchId} (hi : i.val = index) (ha : Action.ofCode action = some a)
    (hpass : MatchFieldsPass s a ports kinds targetRing slot notifyRing present expiry sourceValue sourceMask) :
    exec .setMatch s =
      .next
        (commandEnds
          (s.setEntry i
            (newMatchEntry a ports kinds channelValue channelMask targetRing slot notifyRing present expiry sourceValue
              sourceMask)) tag .success) := by
  subst hi
  obtain ⟨hkinds, hsource, htargets⟩ := matchFieldsPass_iff.1 hpass
  rw [exec_setMatch_eq, execSetMatch, freshCmd_of_carries h]
  simp only [numbered_val, ha, if_neg hkinds, if_neg hsource, if_pos htargets,
    finishAdmin_of_carries (carries_setEntry h)]
  rfl

end

/-! ### CLEAR_MATCH (R100) -/

section
variable {index : Nat} (h : Carries s tag (.clearMatch index))

theorem exec_clearMatch_eq : exec .clearMatch s = execClearMatch s := rfl

include h

theorem clearMatch_index_above (hi : 32 ≤ index) : exec .clearMatch s = .next (commandEnds s tag .badParameter) := by
  rw [exec_clearMatch_eq, execClearMatch, freshCmd_of_carries h]
  simp only [numbered_eq_none hi, finishAdmin_of_carries h]

theorem clearMatch_resets {i : MatchId} (hi : i.val = index) :
    exec .clearMatch s = .next (commandEnds (s.setEntry i .reset) tag .success) := by
  subst hi
  rw [exec_clearMatch_eq, execClearMatch, freshCmd_of_carries h]
  simp only [numbered_val, finishAdmin_of_carries (carries_setEntry h)]

end

/-! ### The statement -/

/-- Settles O33: SET_MATCH by whether its index, its action and its other fields pass; CLEAR_MATCH by its index. -/
theorem matchEntriesSetAndCleared : Obligations.MatchEntriesSetAndCleared := by
  refine ⟨?set, fun s tag index h => ⟨fun hi => clearMatch_index_above h hi, fun i hi => clearMatch_resets h hi⟩⟩
  case set =>
    intro s tag index action ports kinds channelValue channelMask targetRing slot notifyRing present expiry sourceValue
      sourceMask h active suits passes
    refine ⟨?badNumber, fun i a hi ha => ⟨fun hfail => setMatch_fails h hi ha hfail, fun hpass =>
      setMatch_passes h hi ha hpass⟩⟩
    rintro (hi | ha)
    · exact setMatch_index_above h hi
    · exact setMatch_without_action h (Action.ofCode_eq_none ha)

end Sys2Proof.Machine
end

section
/-!
PROOFS. The reply store (O34). SET_REPLY by its first check that fails and by its length, the end of its read by what the
read brought, and CLEAR_REPLY by its slot.
-/
namespace Sys2Proof.Machine
open Sys2Proof.Safety

variable {s : State} {tag : BitVec 16}

/-- A slot's update leaves the command that ring 0 carries. -/
theorem carries_setReply {cmd : AdminCmd} {i : SlotId} {x : ReplySlot} (h : Carries s tag cmd) :
    Carries (s.setReply i x) tag cmd := h

/-- Data of the length asked for are neither cut nor filled. -/
theorem fitTo_length (bytes : List Byte) : fitTo bytes.length bytes = bytes := by
  simp [fitTo]

/-! ### SET_REPLY (R103) -/

section
variable {slot length : Nat} {oneShot : Bool} {buffer : Addr} {i : SlotId}

theorem exec_setReply_eq : exec .setReply s = execSetReply s := rfl

theorem setReply_slot_above (h : Carries s tag (.setReply slot length oneShot buffer)) (hi : 32 ≤ slot) :
    exec .setReply s = .next (commandEnds s tag .badParameter) := by
  rw [exec_setReply_eq, execSetReply, freshCmd_of_carries h]
  simp only [numbered_eq_none hi, finishAdmin_of_carries h]

theorem setReply_too_long (h : Carries s tag (.setReply i.val length oneShot buffer)) (hn : Config.maxLength < length) :
    exec .setReply s = .next (commandEnds s tag .badParameter) := by
  rw [exec_setReply_eq, execSetReply, freshCmd_of_carries h]
  simp only [numbered_val, if_pos hn, finishAdmin_of_carries h]

theorem setReply_loads_empty (h : Carries s tag (.setReply i.val 0 oneShot buffer)) :
    exec .setReply s = .next (commandEnds (s.setReply i { loaded := true, data := [], oneShot }) tag .success) := by
  rw [exec_setReply_eq, execSetReply, freshCmd_of_carries h]
  simp only [numbered_val, if_neg (Nat.not_lt_zero Config.maxLength), if_true,
    finishAdmin_of_carries (carries_setReply h)]

theorem setReply_begins_read (h : Carries s tag (.setReply i.val length oneShot buffer)) (hpos : 1 ≤ length)
    (hn : length ≤ Config.maxLength) :
    exec .setReply s = .next { s with admin := .replyRead i length oneShot buffer } := by
  rw [exec_setReply_eq, execSetReply, freshCmd_of_carries h]
  simp only [numbered_val, if_neg (Nat.not_lt.2 hn), if_neg (Nat.one_le_iff_ne_zero.1 hpos)]

end

/-! ### The end of the read (R103) -/

section
variable {length : Nat} {oneShot : Bool} {buffer : Addr} {i : SlotId} {cmd : AdminCmd} (hl : s.live = true)
  (ha : s.admin = .replyRead i length oneShot buffer) (ho : (s.sub 0).occupancy = .staged)
  (hs : (s.sub 0).staged = some (.admin tag cmd)) (hc : (s.sub 0).completion = some 0)

theorem exec_setReplyReadEnd_eq {read : ReadEnd} : exec (.setReplyReadEnd read) s = execSetReplyReadEnd read s := rfl

include hl ha ho hs hc

theorem setReplyReadEnd_fault : exec (.setReplyReadEnd .fault) s = .next (commandEnds s tag .fetchFault) := by
  simp only [exec_setReplyReadEnd_eq, execSetReplyReadEnd, ha, hl, if_true, finishAdmin_of_staged ho hs hc]

theorem setReplyReadEnd_data {bytes : List Byte} (hb : bytes.length = length) :
    exec (.setReplyReadEnd (.data bytes)) s =
      .next (commandEnds (s.setReply i { loaded := true, data := bytes, oneShot }) tag .success) := by
  subst hb
  have hends := finishAdmin_of_staged (s := s.setReply i { loaded := true, data := bytes, oneShot })
    (status := .success) (result := 0) ho hs hc
  simp only [exec_setReplyReadEnd_eq, execSetReplyReadEnd, ha, hl, if_true, fitTo_length, hends]

end

/-! ### CLEAR_REPLY (R104) -/

section
variable {slot : Nat} (h : Carries s tag (.clearReply slot))

theorem exec_clearReply_eq : exec .clearReply s = execClearReply s := rfl

include h

theorem clearReply_slot_above (hi : 32 ≤ slot) : exec .clearReply s = .next (commandEnds s tag .badParameter) := by
  rw [exec_clearReply_eq, execClearReply, freshCmd_of_carries h]
  simp only [numbered_eq_none hi, finishAdmin_of_carries h]

theorem clearReply_resets {i : SlotId} (hi : i.val = slot) :
    exec .clearReply s = .next (commandEnds (s.setReply i .reset) tag .success) := by
  subst hi
  rw [exec_clearReply_eq, execClearReply, freshCmd_of_carries h]
  simp only [numbered_val, finishAdmin_of_carries (carries_setReply h)]

end

/-! ### The statement -/

/-- Settles O34: SET_REPLY by its checks and its length, the end of its read by what it brought; CLEAR_REPLY by its slot. -/
theorem replySlotsSetAndCleared : Obligations.ReplySlotsSetAndCleared := by
  refine ⟨fun s tag => ⟨fun slot length oneShot buffer h => ⟨fun hbad => ?checks, fun i hi => ?sets⟩,
      fun i length oneShot buffer cmd bytes hl ha ho hs hc =>
        ⟨setReplyReadEnd_fault hl ha ho hs hc, setReplyReadEnd_data hl ha ho hs hc⟩⟩,
    fun s tag slot h => ⟨clearReply_slot_above h, fun i hi => clearReply_resets h hi⟩⟩
  case checks =>
    rcases Nat.lt_or_ge 31 slot with habove | hslot
    · exact setReply_slot_above h habove
    · obtain ⟨i, rfl⟩ : ∃ i : SlotId, i.val = slot := ⟨⟨slot, Nat.lt_succ_of_le hslot⟩, rfl⟩
      exact setReply_too_long h (hbad.resolve_left (Nat.not_lt.2 hslot))
  case sets =>
    subst hi
    refine ⟨fun hzero => ?_, setReply_begins_read h⟩
    subst hzero
    exact setReply_loads_empty h

end Sys2Proof.Machine
end

section
/-!
PROOFS. POST (O7). First the engine states in which the device works, and the fields of the posted word as numbers; then a
POST by whether its ring may take the index.
-/
namespace Sys2Proof.Machine

variable {s : State} {w : Word32} {r : SubId} {i : Nat}

/-- R170: the device works in exactly three of its engine states. -/
theorem State.live_iff : s.live = true ↔ s.engine = .running ∨ s.engine = .halting ∨ s.engine = .halted := by
  unfold State.live
  split <;> simp_all

/-! ### The fields of the posted word (11.1) -/

theorem postRing_eq (hr : r.val = w.toNat % 32) : postRing w = r := by
  apply Fin.ext
  simp only [postRing, BitVec.val_toFin, BitVec.extractLsb'_toNat, Nat.shiftRight_zero]
  exact hr.symm

theorem postIndex_eq : postIndex w = w.toNat / 65536 % 4096 := by
  simp only [postIndex, BitVec.extractLsb'_toNat, Nat.shiftRight_eq_div_pow]

/-! ### A POST taken or rejected (R124) -/

/-- R124: a POST of index `i` to ring `r` is taken. -/
def PostPasses (s : State) (r : SubId) (i : Nat) : Prop :=
  s.live = true ∧ (s.sub r).state = .active ∧ i < (s.sub r).size

theorem exec_post_eq : exec (.post w) s = execPost w s := rfl

section
variable (hr : r.val = w.toNat % 32) (hi : i = w.toNat / 65536 % 4096)
include hr hi

theorem post_taken (hp : PostPasses s r i) :
    exec (.post w) s = .next (s.setSub r { s.sub r with producer := i }) := by
  rw [exec_post_eq, execPost, postRing_eq hr, postIndex_eq, ← hi]
  exact congrArg _ (if_pos hp)

theorem post_rejected (hp : ¬ PostPasses s r i) :
    exec (.post w) s = .next { s with notes := { s.notes with postRejected := true } } := by
  rw [exec_post_eq, execPost, postRing_eq hr, postIndex_eq, ← hi]
  exact congrArg _ (if_neg hp)

end

/-! ### The statement -/

/-- Settles O7: the engine state, the ring's state and the index each decide whether a POST is taken. -/
theorem postTakenOrRejected : Obligations.PostTakenOrRejected := by
  intro w s r i hr hi
  refine ⟨fun hlive hactive hlt => post_taken hr hi ⟨State.live_iff.2 hlive, hactive, hlt⟩,
    fun hbad => post_rejected hr hi ?_⟩
  rintro ⟨hlive, hactive, hlt⟩
  rcases hbad with ⟨hrunning, hhalting, hhalted⟩ | hstate | hsize
  · rcases State.live_iff.1 hlive with he | he | he
    · exact hrunning he
    · exact hhalting he
    · exact hhalted he
  · exact hstate hactive
  · exact Nat.not_lt.2 hsize hlt

end Sys2Proof.Machine
end

section
/-!
PROOFS. CREATE_SUBMISSION_RING and the unknown command (O17). First the sizes and bases that a ring may have; then the
checks that follow the ring's own as one predicate; then the command by the first of its checks that fails.
-/
namespace Sys2Proof.Machine
open Sys2Proof.Safety

variable {s : State} {tag : BitVec 16} {ring port priority completion size : Nat} {base : Addr} {r : SubId}

/-! ### The place of a ring (R121, R136) -/

theorem legalSize_iff {n : Nat} : legalSize n = true ↔ RingSize n := by
  constructor
  · intro h
    simp only [legalSize, Bool.or_eq_true, beq_iff_eq, or_assoc] at h
    rcases h with rfl | rfl | rfl | rfl | rfl | rfl | rfl | rfl | rfl | rfl
    exacts [⟨3, by decide⟩, ⟨4, by decide⟩, ⟨5, by decide⟩, ⟨6, by decide⟩, ⟨7, by decide⟩, ⟨8, by decide⟩,
      ⟨9, by decide⟩, ⟨10, by decide⟩, ⟨11, by decide⟩, ⟨12, by decide⟩]
  · rintro ⟨k, hlow, hhigh, rfl⟩
    interval_cases k <;> rfl

theorem legalRing_iff : legalRing size base = true ↔ RingPlace size base := by
  rw [legalRing, Bool.and_eq_true, legalSize_iff, alignedTo, beq_iff_eq]

/-! ### The checks that follow the ring's own (R136) -/

theorem numbered_eq_some_iff {n i : Nat} {k : Fin n} : numbered n i = some k ↔ k.val = i := by
  constructor
  · intro h
    obtain ⟨hi, hk⟩ := Option.dite_none_right_eq_some.1 h
    exact (congrArg Fin.val (Option.some.inj hk)).symm
  · rintro rfl
    exact numbered_val k

/-- R136: the size and the base, the port, the priority and the completion ring pass their checks. -/
def CreationPasses (s : State) (port priority completion size : Nat) (base : Addr) : Prop :=
  RingPlace size base ∧ ∃ (p : PortId) (q : Fin 8) (c : CplId),
    p.val = port ∧ q.val = priority ∧ c.val = completion ∧ (s.cpl c).state = .active

/-- R136: a port, priority or completion ring with a number that names none fails. -/
theorem not_creationPasses_of_numbers (h : 3 < port ∨ 7 < priority ∨ 15 < completion) :
    ¬ CreationPasses s port priority completion size base := by
  rintro ⟨-, p, q, c, rfl, rfl, rfl, -⟩
  omega

/-- R136: a completion ring that is ABSENT fails. -/
theorem not_creationPasses_of_absent {c : CplId} (h : (s.cpl c).state = .absent) :
    ¬ CreationPasses s port priority c.val size base := by
  rintro ⟨-, p, q, d, -, -, hd, hactive⟩
  rw [Fin.ext hd, h] at hactive
  nomatch hactive

/-! ### CREATE_SUBMISSION_RING by its first check that fails (R136) -/

/-- R136: the context of a new ring. -/
def newSubRing (size : Nat) (base : Addr) (p : PortId) (q : Fin 8) (c : CplId) : SubRing :=
  { SubRing.reset with state := .active, base, size, port := some p, priority := some q, completion := some c }

theorem exec_createSubmissionRing_eq : exec .createSubmissionRing s = execCreateSubmissionRing s := rfl

/-- The update of another ring leaves the command that ring 0 carries. -/
theorem carries_setSub {cmd : AdminCmd} {x : SubRing} (hr : r ≠ 0) (h : Carries s tag cmd) :
    Carries (s.setSub r x) tag cmd := by
  rw [Carries, State.setSub_sub_ne s r x 0 hr.symm]
  exact h

section
variable (h : Carries s tag (.createSubmissionRing ring port priority completion size base))
include h

theorem createSubmissionRing_ring_above (hring : 32 ≤ ring) :
    exec .createSubmissionRing s = .next (commandEnds s tag .badParameter) := by
  rw [exec_createSubmissionRing_eq, execCreateSubmissionRing, freshCmd_of_carries h]
  simp only [numbered_eq_none hring, finishAdmin_of_carries h]

end

section
variable (h : Carries s tag (.createSubmissionRing r.val port priority completion size base))
include h

theorem createSubmissionRing_ring_zero (hr : r = 0) :
    exec .createSubmissionRing s = .next (commandEnds s tag .badParameter) := by
  rw [exec_createSubmissionRing_eq, execCreateSubmissionRing, freshCmd_of_carries h]
  simp only [numbered_val, if_pos hr, finishAdmin_of_carries h]

theorem createSubmissionRing_in_use (hr : r ≠ 0) (hstate : (s.sub r).state ≠ .absent) :
    exec .createSubmissionRing s = .next (commandEnds s tag .inUse) := by
  rw [exec_createSubmissionRing_eq, execCreateSubmissionRing, freshCmd_of_carries h]
  simp only [numbered_val, if_neg hr, if_pos hstate, finishAdmin_of_carries h]

theorem createSubmissionRing_fails (hr : r ≠ 0) (hstate : (s.sub r).state = .absent)
    (hfail : ¬ CreationPasses s port priority completion size base) :
    exec .createSubmissionRing s = .next (commandEnds s tag .badParameter) := by
  rw [exec_createSubmissionRing_eq, execCreateSubmissionRing, freshCmd_of_carries h]
  simp only [numbered_val, if_neg hr, if_neg (not_not_intro hstate), finishAdmin_of_carries h]
  split
  · rfl
  next hplace =>
    have hplace : RingPlace size base := legalRing_iff.1 (by simpa using hplace)
    split
    next p q c hp hq hc =>
      rw [numbered_eq_some_iff] at hp hq hc
      rw [if_neg fun hactive => hfail ⟨hplace, p, q, c, hp, hq, hc, hactive⟩]
    next => rfl

end

theorem createSubmissionRing_passes {p : PortId} {q : Fin 8} {c : CplId}
    (h : Carries s tag (.createSubmissionRing r.val p.val q.val c.val size base)) (hr : r ≠ 0)
    (hstate : (s.sub r).state = .absent) (hplace : RingPlace size base) (hc : (s.cpl c).state = .active) :
    exec .createSubmissionRing s =
      .next (commandEnds (s.setSub r (newSubRing size base p q c)) tag .success (BitVec.ofNat 32 r.val)) := by
  rw [exec_createSubmissionRing_eq, execCreateSubmissionRing, freshCmd_of_carries h]
  simp only [numbered_val, if_neg hr, if_neg (not_not_intro hstate), legalRing_iff.2 hplace, Bool.not_true,
    if_neg Bool.false_ne_true, if_pos hc, finishAdmin_of_carries (carries_setSub hr h)]
  rfl

/-! ### The unknown command (R178) -/

theorem unknownCommand_ends {code : Byte} (h : Carries s tag (.unknown code)) :
    exec .unknownCommand s = .next (commandEnds s tag .badCommand) := by
  change execUnknownCommand s = _
  rw [execUnknownCommand, freshCmd_of_carries h]
  simp only [finishAdmin_of_carries h]

/-! ### The statement -/

/-- Settles O17, by the order of the checks of R136. -/
theorem createSubmissionRingChecks : Obligations.CreateSubmissionRingChecks := by
  intro s tag
  refine ⟨fun code h => unknownCommand_ends h, ?_⟩
  intro ring port priority completion size base h bad
  refine ⟨?number, ?context⟩
  case number =>
    rintro (rfl | habove)
    · exact createSubmissionRing_ring_zero (r := 0) h rfl
    · exact createSubmissionRing_ring_above h habove
  case context =>
    rintro r rfl hne
    have hr : r ≠ 0 := fun hzero => hne (congrArg Fin.val hzero)
    refine ⟨createSubmissionRing_in_use h hr, fun habsent hplace => ?place, fun habsent hnumbers => ?numbers,
      fun c hc habsent hcpl => ?completion, fun p q c hp hq hc habsent hplace hactive => ?passes⟩
    case place => exact createSubmissionRing_fails h hr habsent fun hpass => hplace hpass.1
    case numbers => exact createSubmissionRing_fails h hr habsent (not_creationPasses_of_numbers hnumbers)
    case completion =>
      subst hc
      exact createSubmissionRing_fails h hr habsent (not_creationPasses_of_absent hcpl)
    case passes =>
      subst hp hq hc
      exact createSubmissionRing_passes h hr habsent hplace hactive

end Sys2Proof.Machine
end

section
/-!
PROOFS. SET_VECTOR and the messages in flight (O24). First the end of a message write; then SET_VECTOR by the first of its
checks that fails, and its effect as one replacement and one message that the replaced vector may send.
-/
namespace Sys2Proof.Machine
open Sys2Proof.Safety

variable {s : State} {tag : BitVec 16} {v : VecId}

/-! ### The end of a message write (R152) -/

/-- Of a list of messages in flight, the first one on a vector leaves and the others stay in their order. -/
theorem eraseP_first_on_vector {before after : List Message} {m : Message} (hb : ∀ x ∈ before, x.vector ≠ v)
    (hm : m.vector = v) : (before ++ m :: after).eraseP (·.vector == v) = before ++ after := by
  rw [List.eraseP_append_right _ (by simpa using hb), List.eraseP_cons_of_pos (by simp [hm])]

theorem exec_messageWriteEnd_eq {write : WriteEnd} :
    exec (.messageWriteEnd v write) s = execMessageWriteEnd v write s := rfl

theorem messageWriteEnd_ok {before after : List Message} {m : Message} (hl : s.live = true)
    (hs : s.messages = before ++ m :: after) (hb : ∀ x ∈ before, x.vector ≠ v) (hm : m.vector = v) :
    exec (.messageWriteEnd v .ok) s = .next { s with messages := before ++ after } := by
  have hany : s.messages.any (·.vector == v) = true := by simp [hs, hm]
  rw [exec_messageWriteEnd_eq, execMessageWriteEnd, if_pos ⟨hl, hany⟩]
  simp only [hs, eraseP_first_on_vector hb hm]

/-! ### SET_VECTOR (R153) -/

/-- A vector's update leaves the command that ring 0 carries. -/
theorem carries_setVector {cmd : AdminCmd} {x : IrqVector} (h : Carries s tag cmd) :
    Carries (s.setVector v x) tag cmd := h

/-- A message, sent or not, leaves the command that ring 0 carries. -/
theorem carries_sendIf {cmd : AdminCmd} {b : Bool} (h : Carries s tag cmd) : Carries (s.sendIf b v) tag cmd := by
  obtain ⟨_, _, ht⟩ := s.sendIf_frame b v
  rw [ht]
  exact h

theorem alignedTo_iff {n : Nat} {a : Addr} : alignedTo n a = true ↔ a.toNat % n = 0 := beq_iff_eq

section
variable {vector : Nat} {masked : Bool} {data : Word32} {address : Addr}

theorem exec_setVector_eq : exec .setVector s = execSetVector s := rfl

theorem setVector_vector_above (h : Carries s tag (.setVector vector masked data address)) (hv : 16 ≤ vector) :
    exec .setVector s = .next (commandEnds s tag .badParameter) := by
  rw [exec_setVector_eq, execSetVector, freshCmd_of_carries h]
  simp only [numbered_eq_none hv, finishAdmin_of_carries h]

theorem setVector_misaligned (h : Carries s tag (.setVector v.val masked data address)) (ha : address.toNat % 4 ≠ 0) :
    exec .setVector s = .next (commandEnds s tag .badParameter) := by
  have hbad : alignedTo 4 address = false := Bool.eq_false_iff.2 fun hok => ha (alignedTo_iff.1 hok)
  rw [exec_setVector_eq, execSetVector, freshCmd_of_carries h]
  simp only [numbered_val, hbad, Bool.not_false, if_true, finishAdmin_of_carries h]

/-- R153: the vector is replaced, and it sends a message where it has just been unmasked with one pending. -/
theorem setVector_replaces (h : Carries s tag (.setVector v.val masked data address)) (ha : address.toNat % 4 = 0) :
    exec .setVector s =
      .next
        (commandEnds
          ((s.setVector v { address, data, masked, pending := masked && (s.vector v).pending }).sendIf
            (!masked && (s.vector v).pending) v) tag .success) := by
  rw [exec_setVector_eq, execSetVector, freshCmd_of_carries h]
  simp only [numbered_val, alignedTo_iff.2 ha, Bool.not_true, if_neg Bool.false_ne_true,
    finishAdmin_of_carries (carries_sendIf (carries_setVector h))]

/-- R151: a vector that has just been set without its mask sends with its new address and data. -/
theorem State.sendMessage_setVector_unmasked {x : IrqVector} (hx : x.masked = false) :
    (s.setVector v x).sendMessage v =
      { s.setVector v x with messages := s.messages ++ [{ vector := v, address := x.address, data := x.data }] } := by
  rw [State.sendMessage_unmasked (by rwa [State.setVector_vector_self]), State.setVector_vector_self,
    State.setVector_messages]

end

/-! ### The statement -/

/-- Settles O24: messages by the mask of their vector, and SET_VECTOR by its first check that fails, by the new mask and by
what was pending. -/
theorem messagesFollowVectors : Obligations.MessagesFollowVectors := by
  refine ⟨fun s v => ⟨State.sendMessage_unmasked, State.sendMessage_masked, fun before m after => messageWriteEnd_ok⟩,
    fun s tag vector masked data address h => ⟨fun hbad => ?checks, ?sets⟩⟩
  case checks =>
    rcases Nat.lt_or_ge 15 vector with habove | hv
    · exact setVector_vector_above h habove
    · obtain ⟨v, rfl⟩ : ∃ v : VecId, v.val = vector := ⟨⟨vector, Nat.lt_succ_of_le hv⟩, rfl⟩
      exact setVector_misaligned h (hbad.resolve_left (Nat.not_lt.2 hv))
  case sets =>
    rintro v rfl ha
    rw [setVector_replaces h ha]
    refine ⟨fun hmasked => ?masked, fun hmasked hpending => ?quiet, fun hmasked hpending => ?sends⟩ <;> subst hmasked
    case masked => rfl
    case quiet =>
      rw [hpending]
      rfl
    case sends =>
      have hsend := State.sendMessage_setVector_unmasked (s := s) (v := v)
        (x := { address, data, masked := false, pending := false }) rfl
      rw [hpending, ← hsend]
      rfl

end Sys2Proof.Machine
end

section
/-!
PROOFS. CREATE_COMPLETION_RING and DELETE_COMPLETION_RING (O25). Creation by the first of its checks that fails, with those
that follow the ring's own as one predicate; deletion by its ring's state and by whether a submission ring names it.
-/
namespace Sys2Proof.Machine
open Sys2Proof.Safety

variable {s : State} {tag : BitVec 16} {ring : Nat} {c : CplId}

/-- A completion ring's update leaves the command that ring 0 carries. -/
theorem carries_setCpl {cmd : AdminCmd} {x : CplRing} (h : Carries s tag cmd) : Carries (s.setCpl c x) tag cmd := h

theorem RingState.ne_absent_of_active {q : RingState} (h : q = .active) : q ≠ .absent := by
  rw [h]
  decide

/-! ### CREATE_COMPLETION_RING by its first check that fails (R154) -/

section
variable {vector threshold size delay : Nat} {base : Addr}

theorem exec_createCompletionRing_eq : exec .createCompletionRing s = execCreateCompletionRing s := rfl

theorem createCompletionRing_ring_above (h : Carries s tag (.createCompletionRing ring vector threshold size delay base))
    (hring : 16 ≤ ring) : exec .createCompletionRing s = .next (commandEnds s tag .badParameter) := by
  rw [exec_createCompletionRing_eq, execCreateCompletionRing, freshCmd_of_carries h]
  simp only [numbered_eq_none hring, finishAdmin_of_carries h]

/-- R154: the size and the base, the vector and the threshold pass their checks. -/
def CompletionCreationPasses (vector threshold size : Nat) (base : Addr) : Prop :=
  RingPlace size base ∧ vector ≤ 15 ∧ 1 ≤ threshold ∧ threshold ≤ 255

theorem not_completionCreationPasses
    (h : ¬ RingPlace size base ∨ 15 < vector ∨ threshold = 0 ∨ 255 < threshold) :
    ¬ CompletionCreationPasses vector threshold size base := by
  rintro ⟨hplace, hvector, hlow, hhigh⟩
  have hnumbers := h.resolve_left (not_not_intro hplace)
  omega

section
variable (h : Carries s tag (.createCompletionRing c.val vector threshold size delay base))
include h

theorem createCompletionRing_ring_zero (hc : c = 0) :
    exec .createCompletionRing s = .next (commandEnds s tag .badParameter) := by
  rw [exec_createCompletionRing_eq, execCreateCompletionRing, freshCmd_of_carries h]
  simp only [numbered_val, if_pos hc, finishAdmin_of_carries h]

theorem createCompletionRing_in_use (hc : c ≠ 0) (hstate : (s.cpl c).state ≠ .absent) :
    exec .createCompletionRing s = .next (commandEnds s tag .inUse) := by
  rw [exec_createCompletionRing_eq, execCreateCompletionRing, freshCmd_of_carries h]
  simp only [numbered_val, if_neg hc, if_pos hstate, finishAdmin_of_carries h]

theorem createCompletionRing_fails (hc : c ≠ 0) (hstate : (s.cpl c).state = .absent)
    (hfail : ¬ CompletionCreationPasses vector threshold size base) :
    exec .createCompletionRing s = .next (commandEnds s tag .badParameter) := by
  rw [exec_createCompletionRing_eq, execCreateCompletionRing, freshCmd_of_carries h]
  simp only [numbered_val, if_neg hc, if_neg (not_not_intro hstate), finishAdmin_of_carries h]
  split
  · rfl
  next hplace =>
    have hplace : RingPlace size base := legalRing_iff.1 (by simpa using hplace)
    split
    next v hv =>
      have hvector : vector ≤ 15 := numbered_eq_some_iff.1 hv ▸ Nat.le_of_lt_succ v.isLt
      rw [if_neg fun hthreshold => hfail ⟨hplace, hvector, hthreshold⟩]
    next => rfl

end

theorem createCompletionRing_passes {v : VecId}
    (h : Carries s tag (.createCompletionRing c.val v.val threshold size delay base)) (hc : c ≠ 0)
    (hstate : (s.cpl c).state = .absent) (hplace : RingPlace size base) (hlow : 1 ≤ threshold) (hhigh : threshold ≤ 255) :
    exec .createCompletionRing s =
      .next
        (commandEnds (s.setCpl c (CplRing.made base size v threshold delay)) tag .success (BitVec.ofNat 32 c.val)) := by
  rw [exec_createCompletionRing_eq, execCreateCompletionRing, freshCmd_of_carries h]
  simp only [numbered_val, if_neg hc, if_neg (not_not_intro hstate), legalRing_iff.2 hplace, Bool.not_true,
    if_neg Bool.false_ne_true, if_pos (And.intro hlow hhigh), finishAdmin_of_carries (carries_setCpl h)]

end

/-! ### DELETE_COMPLETION_RING by its first check that fails (R155) -/

/-- R155: a submission ring that is not ABSENT names the completion ring. -/
theorem State.completionNamed_iff :
    s.completionNamed c = true ↔ ∃ r : SubId, (s.sub r).state ≠ .absent ∧ (s.sub r).completion = some c := by
  simp [State.completionNamed, allSubs]

theorem exec_deleteCompletionRing_eq : exec .deleteCompletionRing s = execDeleteCompletionRing s := rfl

theorem deleteCompletionRing_ring_above (h : Carries s tag (.deleteCompletionRing ring)) (hring : 16 ≤ ring) :
    exec .deleteCompletionRing s = .next (commandEnds s tag .badParameter) := by
  rw [exec_deleteCompletionRing_eq, execDeleteCompletionRing, freshCmd_of_carries h]
  simp only [numbered_eq_none hring, finishAdmin_of_carries h]

section
variable (h : Carries s tag (.deleteCompletionRing c.val))
include h

theorem deleteCompletionRing_ring_zero (hc : c = 0) :
    exec .deleteCompletionRing s = .next (commandEnds s tag .badParameter) := by
  rw [exec_deleteCompletionRing_eq, execDeleteCompletionRing, freshCmd_of_carries h]
  simp only [numbered_val, if_pos hc, finishAdmin_of_carries h]

theorem deleteCompletionRing_absent (hc : c ≠ 0) (hstate : (s.cpl c).state = .absent) :
    exec .deleteCompletionRing s = .next (commandEnds s tag .notFound) := by
  rw [exec_deleteCompletionRing_eq, execDeleteCompletionRing, freshCmd_of_carries h]
  simp only [numbered_val, if_neg hc, if_pos hstate, finishAdmin_of_carries h]

theorem deleteCompletionRing_in_use (hc : c ≠ 0) (hstate : (s.cpl c).state ≠ .absent)
    (hnamed : s.completionNamed c = true) : exec .deleteCompletionRing s = .next (commandEnds s tag .inUse) := by
  rw [exec_deleteCompletionRing_eq, execDeleteCompletionRing, freshCmd_of_carries h]
  simp only [numbered_val, if_neg hc, if_neg hstate, if_pos hnamed, finishAdmin_of_carries h]

theorem deleteCompletionRing_resets (hc : c ≠ 0) (hstate : (s.cpl c).state ≠ .absent)
    (hnamed : ¬ s.completionNamed c = true) :
    exec .deleteCompletionRing s = .next (commandEnds (s.setCpl c .reset) tag .success) := by
  rw [exec_deleteCompletionRing_eq, execDeleteCompletionRing, freshCmd_of_carries h]
  simp only [numbered_val, if_neg hc, if_neg hstate, if_neg hnamed, finishAdmin_of_carries (carries_setCpl h)]

end

/-! ### The statement -/

/-- Settles O25, by the order of the checks of R154 and R155. -/
theorem completionRingsCreatedAndDeleted : Obligations.CompletionRingsCreatedAndDeleted := by
  refine fun s tag ring => ⟨fun vector threshold size delay base h => ⟨?createNumber, ?creates⟩,
    fun h => ⟨?deleteNumber, ?deletes⟩⟩
  case createNumber =>
    rintro (rfl | habove)
    · exact createCompletionRing_ring_zero (c := 0) h rfl
    · exact createCompletionRing_ring_above h habove
  case creates =>
    rintro c rfl hne
    have hc : c ≠ 0 := fun hzero => hne (congrArg Fin.val hzero)
    refine ⟨fun hactive => createCompletionRing_in_use h hc (RingState.ne_absent_of_active hactive),
      fun habsent hbad => createCompletionRing_fails h hc habsent (not_completionCreationPasses hbad),
      fun v habsent hplace hv hlow hhigh => ?passes⟩
    subst hv
    exact createCompletionRing_passes h hc habsent hplace hlow hhigh
  case deleteNumber =>
    rintro (rfl | habove)
    · exact deleteCompletionRing_ring_zero (c := 0) h rfl
    · exact deleteCompletionRing_ring_above h habove
  case deletes =>
    rintro c rfl hne named
    have hc : c ≠ 0 := fun hzero => hne (congrArg Fin.val hzero)
    exact ⟨deleteCompletionRing_absent h hc,
      fun hactive hnamed =>
        deleteCompletionRing_in_use h hc (RingState.ne_absent_of_active hactive) (State.completionNamed_iff.2 hnamed),
      fun hactive hnamed =>
        deleteCompletionRing_resets h hc (RingState.ne_absent_of_active hactive) (mt State.completionNamed_iff.1 hnamed)⟩

end Sys2Proof.Machine
end

section
/-!
PROOFS. The two parts of the state that only register writes and resets reach, SETUP_ADDRESS (R172) and the notes
(R176), for O5 and O6. `State.withHost` gives them other values. A lemma for each access and each shared operation says
that it works in the same way whatever the two parts hold, and leaves them as they are.
-/
namespace Sys2Proof.Machine

/-- The same device, whose setup address is `a` and whose notes are `n`. -/
def State.withHost (s : State) (a : Addr) (n : Notes) : State := { s with setupAddress := a, notes := n }

variable (s : State) {a : Addr} {n : Notes}

/-!
### What the state is read by

The proofs are `(rfl)`, which `simp` does not take for definitional: it then rewrites a condition together with the
evidence that it is decidable, and `State.ite_withHost` below applies.
-/

@[simp] theorem State.withHost_engine : (s.withHost a n).engine = s.engine := (rfl)
@[simp] theorem State.withHost_timeBase : (s.withHost a n).timeBase = s.timeBase := (rfl)
@[simp] theorem State.withHost_setupRead : (s.withHost a n).setupRead = s.setupRead := (rfl)
@[simp] theorem State.withHost_admin : (s.withHost a n).admin = s.admin := (rfl)
@[simp] theorem State.withHost_ports : (s.withHost a n).ports = s.ports := (rfl)
@[simp] theorem State.withHost_messages : (s.withHost a n).messages = s.messages := (rfl)
@[simp] theorem State.withHost_health : (s.withHost a n).health = s.health := (rfl)
@[simp] theorem State.withHost_entries : (s.withHost a n).entries = s.entries := (rfl)
@[simp] theorem State.withHost_live : (s.withHost a n).live = s.live := (rfl)
@[simp] theorem State.withHost_freshCmd : (s.withHost a n).freshCmd = s.freshCmd := (rfl)
@[simp] theorem State.withHost_adminTag : (s.withHost a n).adminTag = s.adminTag := (rfl)
@[simp] theorem State.withHost_port (p : PortId) : (s.withHost a n).port p = s.port p := (rfl)
@[simp] theorem State.withHost_sub (r : SubId) : (s.withHost a n).sub r = s.sub r := (rfl)
@[simp] theorem State.withHost_cpl (c : CplId) : (s.withHost a n).cpl c = s.cpl c := (rfl)
@[simp] theorem State.withHost_rcv (k : RcvId) : (s.withHost a n).rcv k = s.rcv k := (rfl)
@[simp] theorem State.withHost_vector (v : VecId) : (s.withHost a n).vector v = s.vector v := (rfl)
@[simp] theorem State.withHost_reply (i : SlotId) : (s.withHost a n).reply i = s.reply i := (rfl)
@[simp] theorem State.withHost_stagedOf (r : SubId) : (s.withHost a n).stagedOf r = s.stagedOf r := (rfl)
@[simp] theorem State.withHost_execOf (r : SubId) : (s.withHost a n).execOf r = s.execOf r := (rfl)
@[simp] theorem State.withHost_abortPending (r : SubId) : (s.withHost a n).abortPending r = s.abortPending r := (rfl)
@[simp] theorem State.withHost_healthEntry (p : PortId) (st : Station) :
    (s.withHost a n).healthEntry p st = s.healthEntry p st := (rfl)
@[simp] theorem State.withHost_inState (p : PortId) (r : SubId) (q : ExecState) :
    (s.withHost a n).inState p r q = s.inState p r q := (rfl)
@[simp] theorem State.withHost_pick (p : PortId) : (s.withHost a n).pick p = s.pick p := (rfl)
@[simp] theorem State.withHost_mayFetch (r : SubId) (c : CplId) :
    (s.withHost a n).mayFetch r c = s.mayFetch r c := (rfl)
@[simp] theorem State.withHost_latched (r : SubId) : (s.withHost a n).latched r = s.latched r := (rfl)
@[simp] theorem State.withHost_completionNamed (c : CplId) :
    (s.withHost a n).completionNamed c = s.completionNamed c := (rfl)
@[simp] theorem State.withHost_matchTargetsOk (x : Action) (t i y : Byte) (b : Bool) :
    (s.withHost a n).matchTargetsOk x t i y b = s.matchTargetsOk x t i y b := (rfl)
@[simp] theorem State.withHost_candidates (p : PortId) (kind : FrameKind) (source : Station) :
    (s.withHost a n).candidates p kind source = s.candidates p kind source := (rfl)
@[simp] theorem State.withHost_sentByte (x : Port) (f : FrameRec) :
    (s.withHost a n).sentByte x f = s.sentByte x f := (rfl)
@[simp] theorem State.withHost_sentRecessive (x : Port) (f : FrameRec) (bit : Fin 8) :
    (s.withHost a n).sentRecessive x f bit = s.sentRecessive x f bit := (rfl)
@[simp] theorem State.withHost_mustClose (f : FrameRec) : (s.withHost a n).mustClose f = s.mustClose f := (rfl)
@[simp] theorem State.withHost_turnaroundReply (p : PortId) (v : ServiceRec) :
    (s.withHost a n).turnaroundReply p v = s.turnaroundReply p v := (rfl)
@[simp] theorem State.withHost_bdaInBit (p : PortId) (x : Port) (f : FrameRec) (bit : Fin 8) :
    (s.withHost a n).bdaInBit p x f bit = s.bdaInBit p x f bit := (rfl)

/-! ### Updates of the other parts -/

@[simp] theorem State.withHost_setEngine (x : EngineState) :
    { s.withHost a n with engine := x } = { s with engine := x }.withHost a n := rfl
@[simp] theorem State.withHost_setTimeBase (x : Time) :
    { s.withHost a n with timeBase := x } = { s with timeBase := x }.withHost a n := rfl
@[simp] theorem State.withHost_setAdmin (x : AdminPhase) :
    { s.withHost a n with admin := x } = { s with admin := x }.withHost a n := rfl
@[simp] theorem State.withHost_setPorts (x : Vector Port 4) :
    { s.withHost a n with ports := x } = { s with ports := x }.withHost a n := rfl
@[simp] theorem State.withHost_setMessages (x : List Message) :
    { s.withHost a n with messages := x } = { s with messages := x }.withHost a n := rfl
@[simp] theorem State.withHost_setHealth (x : List HealthEntry) :
    { s.withHost a n with health := x } = { s with health := x }.withHost a n := rfl

/-- A choice between two states whose condition reads neither of the two parts. -/
@[simp] theorem State.ite_withHost {c : Prop} {_ : Decidable c} (t : State) :
    (if c then s.withHost a n else t.withHost a n) = (if c then s else t).withHost a n :=
  (apply_ite (fun u : State => u.withHost a n) c s t).symm

@[simp] theorem State.withHost_setPort (p : PortId) (x : Port) :
    (s.withHost a n).setPort p x = (s.setPort p x).withHost a n := rfl
@[simp] theorem State.withHost_setSub (r : SubId) (k : SubRing) :
    (s.withHost a n).setSub r k = (s.setSub r k).withHost a n := rfl
@[simp] theorem State.withHost_setCpl (c : CplId) (k : CplRing) :
    (s.withHost a n).setCpl c k = (s.setCpl c k).withHost a n := rfl
@[simp] theorem State.withHost_setRcv (r : RcvId) (k : RcvRing) :
    (s.withHost a n).setRcv r k = (s.setRcv r k).withHost a n := rfl
@[simp] theorem State.withHost_setVector (v : VecId) (x : IrqVector) :
    (s.withHost a n).setVector v x = (s.setVector v x).withHost a n := rfl
@[simp] theorem State.withHost_setEntry (i : MatchId) (e : MatchEntry) :
    (s.withHost a n).setEntry i e = (s.setEntry i e).withHost a n := rfl
@[simp] theorem State.withHost_setReply (i : SlotId) (k : ReplySlot) :
    (s.withHost a n).setReply i k = (s.setReply i k).withHost a n := rfl
@[simp] theorem State.withHost_setSnapshot (p : PortId) (x : Option Snapshot) :
    (s.withHost a n).setSnapshot p x = (s.setSnapshot p x).withHost a n := rfl
@[simp] theorem State.withHost_count (p : PortId) (c : Counter) :
    (s.withHost a n).count p c = (s.count p c).withHost a n := rfl
@[simp] theorem State.withHost_setExec (r : SubId) (x : StagedXfer) (e : ExecRec) :
    (s.withHost a n).setExec r x e = (s.setExec r x e).withHost a n := rfl
@[simp] theorem State.withHost_reserve (r : RcvId) : (s.withHost a n).reserve r = (s.reserve r).withHost a n := rfl
@[simp] theorem State.withHost_countLost (r : RcvId) :
    (s.withHost a n).countLost r = (s.countLost r).withHost a n := rfl
@[simp] theorem State.withHost_dropRcv (r : RcvId) : (s.withHost a n).dropRcv r = (s.dropRcv r).withHost a n := rfl
@[simp] theorem State.withHost_fail (cause : FailureCause) :
    (s.withHost a n).fail cause = (s.fail cause).withHost a n := rfl
@[simp] theorem State.withHost_leavesFrame (p : PortId) :
    (s.withHost a n).leavesFrame p = (s.leavesFrame p).withHost a n := rfl
@[simp] theorem State.withHost_driveBda (p : PortId) (d : Driver) :
    (s.withHost a n).driveBda p d = (s.driveBda p d).withHost a n := rfl
@[simp] theorem State.withHost_setFrame (p : PortId) (f : FrameRec) (last : Level) (bit : Nat) :
    (s.withHost a n).setFrame p f last bit = (s.setFrame p f last bit).withHost a n := rfl
@[simp] theorem State.withHost_observeFrame (p : PortId) (f : FrameRec) (last : Level) (bit : Nat) :
    (s.withHost a n).observeFrame p f last bit = (s.observeFrame p f last bit).withHost a n := rfl
@[simp] theorem State.withHost_openFrame (p : PortId) (r : SubId) (d : Desc) :
    (s.withHost a n).openFrame p r d = (s.openFrame p r d).withHost a n := rfl
@[simp] theorem State.withHost_beginTurn (p : PortId) (r : SubId) (y : StagedXfer) (e : ExecRec) :
    (s.withHost a n).beginTurn p r y e = (s.beginTurn p r y e).withHost a n := rfl
@[simp] theorem State.withHost_byteSent (p : PortId) (f : FrameRec) (byte : Byte) :
    (s.withHost a n).byteSent p f byte = (s.byteSent p f byte).withHost a n := rfl
@[simp] theorem State.withHost_inRingOrder (before : State) :
    (s.withHost a n).inRingOrder (before.withHost a n) = (s.inRingOrder before).withHost a n := rfl

/-! ### Messages, completions and the health table (R134, R151, R71 to R74) -/

@[simp] theorem State.withHost_sendMessage (v : VecId) :
    (s.withHost a n).sendMessage v = (s.sendMessage v).withHost a n := by
  simp [State.sendMessage, ↓State.withHost_setMessages]

@[simp] theorem State.withHost_sendIf (b : Bool) (v : VecId) :
    (s.withHost a n).sendIf b v = (s.sendIf b v).withHost a n := by
  simp [State.sendIf]

@[simp] theorem State.withHost_handOver (r : SubId) (d : Done) :
    (s.withHost a n).handOver r d = (s.handOver r d).withHost a n := by
  unfold State.handOver
  simp only [State.withHost_sub, State.withHost_setSub, State.withHost_cpl, State.withHost_setCpl, State.ite_withHost]
  split <;> rfl

@[simp] theorem State.withHost_finishAdmin (status : Status) (result : Word32) :
    (s.withHost a n).finishAdmin status result = (s.finishAdmin status result).withHost a n := by
  simp only [State.finishAdmin, State.withHost_adminTag, State.withHost_handOver, ↓State.withHost_setAdmin]

@[simp] theorem State.withHost_complete (r : SubId) (d : Done) :
    (s.withHost a n).complete r d = (s.complete r d).withHost a n := by
  unfold State.complete
  simp only [State.withHost_handOver, State.withHost_admin, State.withHost_finishAdmin, State.ite_withHost]
  split <;> rfl

@[simp] theorem State.withHost_targetFailure (p : PortId) (st : Station) :
    (s.withHost a n).targetFailure p st = (s.targetFailure p st).withHost a n := by
  unfold State.targetFailure
  simp only [State.withHost_healthEntry, ↓State.withHost_setHealth, State.withHost_health, State.withHost_port,
    State.withHost_count, State.ite_withHost]
  split <;> rfl

@[simp] theorem State.withHost_targetSuccess (p : PortId) (st : Station) :
    (s.withHost a n).targetSuccess p st = (s.targetSuccess p st).withHost a n := by
  unfold State.targetSuccess
  simp only [State.withHost_healthEntry, ↓State.withHost_setHealth, State.withHost_health]
  split <;> rfl

@[simp] theorem State.withHost_tellHealth (p : PortId) (d : Desc) (status : Status) :
    (s.withHost a n).tellHealth p d status = (s.tellHealth p d status).withHost a n := by
  unfold State.tellHealth
  simp only [State.withHost_port, State.withHost_targetFailure, State.withHost_targetSuccess]
  split
  · split <;> rfl
  · rfl

@[simp] theorem State.withHost_completeExec (r : SubId) (status : Status) (bytes : Nat) :
    (s.withHost a n).completeExec r status bytes = (s.completeExec r status bytes).withHost a n := by
  unfold State.completeExec
  simp only [State.withHost_execOf, State.withHost_sub, State.withHost_tellHealth, State.withHost_complete]
  split <;> rfl

@[simp] theorem State.withHost_completeAnswer (r : SubId) (status : Status) (bytes : Nat) :
    (s.withHost a n).completeAnswer r status bytes = (s.completeAnswer r status bytes).withHost a n := by
  unfold State.completeAnswer
  simp only [State.withHost_stagedOf, State.withHost_complete]
  split <;> rfl

/-! ### First consideration and the schedulers (R45 to R47) -/

@[simp] theorem State.withHost_healthCheck (r : SubId) (p : PortId) (x : StagedXfer) (e : ExecRec) :
    (s.withHost a n).healthCheck r p x e = (s.healthCheck r p x e).withHost a n := by
  unfold State.healthCheck
  simp only [State.withHost_setExec, State.withHost_healthEntry, State.withHost_completeExec, State.ite_withHost]
  split
  · rfl
  · split <;> rfl

@[simp] theorem State.withHost_consider (r : SubId) : (s.withHost a n).consider r = (s.consider r).withHost a n := by
  unfold State.consider
  simp only [State.withHost_sub, State.withHost_execOf, State.withHost_port, State.withHost_completeExec,
    State.withHost_setExec, State.withHost_healthCheck]
  split
  · split <;> rfl
  · rfl

@[simp] theorem State.withHost_recheckHeld (p : PortId) :
    (s.withHost a n).recheckHeld p = (s.recheckHeld p).withHost a n := by
  refine List.foldl_hom (fun t : State => t.withHost a n) fun t r => ?_
  simp only [State.withHost_inState, State.withHost_execOf, State.withHost_healthCheck]
  split
  · split <;> rfl
  · rfl

@[simp] theorem State.withHost_portDown (p : PortId) : (s.withHost a n).portDown p = (s.portDown p).withHost a n := by
  refine List.foldl_hom (fun t : State => t.withHost a n) fun t r => ?_
  simp only [State.withHost_inState, State.withHost_execOf, State.withHost_completeExec]
  split
  · split <;> rfl
  · rfl

/-! ### Receive rings and records (R106, R115, R158, R159) -/

@[simp] theorem State.withHost_release (res : Option RcvId) :
    (s.withHost a n).release res = (s.release res).withHost a n := by
  unfold State.release
  split <;> simp

@[simp] theorem State.withHost_handRecord (r : RcvId) (e : RcvEntry) :
    (s.withHost a n).handRecord r e = (s.handRecord r e).withHost a n := by
  simp [State.handRecord]

@[simp] theorem State.withHost_claimAtPosting (r : RcvId) (e : RcvEntry) :
    (s.withHost a n).claimAtPosting r e = (s.claimAtPosting r e).withHost a n := by
  unfold State.claimAtPosting
  simp only [State.withHost_rcv, State.withHost_setRcv, State.withHost_countLost]
  split <;> rfl

@[simp] theorem State.withHost_slotNote (p : PortId) (kind : RecordKind) (h : Candidate) (f : FrameRec) (length : Nat) :
    (s.withHost a n).slotNote p kind h f length = (s.slotNote p kind h f length).withHost a n := by
  unfold State.slotNote
  split <;> simp

@[simp] theorem State.withHost_queryClosed (p : PortId) (q : QueryDetails) (reason : CloseReason) :
    (s.withHost a n).queryClosed p q reason = (s.queryClosed p q reason).withHost a n := by
  simp [State.queryClosed]

/-! ### Ends of turns and attempts, and of service (R52 to R57, R95 to R97) -/

@[simp] theorem State.withHost_returnTurn (r : SubId) :
    (s.withHost a n).returnTurn r = (s.returnTurn r).withHost a n := by
  unfold State.returnTurn
  simp only [State.withHost_execOf, State.withHost_abortPending, State.withHost_completeExec, State.withHost_setExec,
    State.ite_withHost]
  split <;> rfl

@[simp] theorem State.withHost_loseTurn (r : SubId) (patience : Nat) :
    (s.withHost a n).loseTurn r patience = (s.loseTurn r patience).withHost a n := by
  unfold State.loseTurn
  simp only [State.withHost_execOf, State.withHost_abortPending, State.withHost_setExec, State.withHost_completeExec,
    State.ite_withHost]
  split <;> rfl

@[simp] theorem State.withHost_endAttempt (r : SubId) (got : Option AttemptResult) (moved : Nat) :
    (s.withHost a n).endAttempt r got moved = (s.endAttempt r got moved).withHost a n := by
  unfold State.endAttempt
  simp only [State.withHost_execOf, State.withHost_setExec, State.withHost_completeExec, State.withHost_abortPending,
    State.ite_withHost]
  split <;> rfl

@[simp] theorem State.withHost_countFailed (p : PortId) (r : SubId) (got : Option AttemptResult) :
    (s.withHost a n).countFailed p r got = (s.countFailed p r got).withHost a n := by
  simp [State.countFailed]

@[simp] theorem State.withHost_stickTurn (r : SubId) :
    (s.withHost a n).stickTurn r = (s.stickTurn r).withHost a n := by
  unfold State.stickTurn
  simp only [State.withHost_execOf, State.withHost_completeExec]
  split <;> rfl

@[simp] theorem State.withHost_attemptOver (p : PortId) (x : Port) (r : SubId) (got : Option AttemptResult)
    (moved : Nat) :
    (s.withHost a n).attemptOver p x r got moved = (s.attemptOver p x r got moved).withHost a n := by
  simp [State.attemptOver]

@[simp] theorem State.withHost_dropService (p : PortId) (f : FrameRec) (reason : CloseReason) :
    (s.withHost a n).dropService p f reason = (s.dropService p f reason).withHost a n := by
  unfold State.dropService
  simp only [State.withHost_release, State.withHost_port, State.withHost_setPort, State.withHost_completeAnswer,
    State.withHost_queryClosed]
  split <;> rfl

@[simp] theorem State.withHost_deliver (p : PortId) (f : FrameRec) (v : ServiceRec) :
    (s.withHost a n).deliver p f v = (s.deliver p f v).withHost a n := by
  unfold State.deliver
  simp only [State.withHost_handRecord, State.withHost_rcv, State.withHost_countLost, State.ite_withHost,
    State.withHost_reply, State.withHost_setReply, State.withHost_slotNote, State.withHost_port,
    State.withHost_setPort, State.withHost_abortPending, State.withHost_completeAnswer]
  split
  · split <;> rfl
  · rfl
  · split <;> rfl
  · rfl

@[simp] theorem State.withHost_endEarly (p : PortId) (f : FrameRec) :
    (s.withHost a n).endEarly p f = (s.endEarly p f).withHost a n := by
  unfold State.endEarly
  simp only [State.withHost_port, State.withHost_setPort, State.withHost_completeAnswer, State.withHost_dropService,
    State.ite_withHost]
  split <;> rfl

/-! ### A happening at a port and what it brings about at its end (R35, R42, R174) -/

@[simp] theorem State.withHost_enterOff (p : PortId) : (s.withHost a n).enterOff p = (s.enterOff p).withHost a n := by
  simp [State.enterOff]

theorem State.withHost_settleStop (p : PortId) (before : State) :
    (s.withHost a n).settleStop p (before.withHost a n) = (s.settleStop p before).withHost a n := by
  simp [State.settleStop]

@[simp] theorem State.withHost_settleHalt : (s.withHost a n).settleHalt = (s.settleHalt).withHost a n := by
  simp [State.settleHalt, ↓State.withHost_setEngine]

theorem State.withHost_settle (p : PortId) (before : State) :
    (s.withHost a n).settle p (before.withHost a n) = (s.settle p before).withHost a n := by
  simp only [State.settle, State.withHost_settleStop, State.withHost_settleHalt]

/-- A happening at a port, where what it does while the device works and what it does after the engine's failure (R42)
both commute with the change of the two parts. -/
theorem State.withHost_event {p : PortId} {act act' leaves leaves' : Port → State}
    (hact : ∀ x, act' x = (act x).withHost a n) (hleaves : ∀ x, leaves' x = (leaves x).withHost a n) :
    (s.withHost a n).event p act' leaves' = (s.event p act leaves).withHost a n := by
  have hport : (s.withHost a n).atPort p act' leaves' = (s.atPort p act leaves).withHost a n := by
    simp [State.atPort, hact, hleaves]
  rw [State.event, hport, State.withHost_settle, State.event]

theorem State.withHost_onFrame {act act' : Port → FrameRec → State}
    (hact : ∀ x f, act' x f = (act x f).withHost a n) (x : Port) :
    (s.withHost a n).onFrame act' x = (s.onFrame act x).withHost a n := by
  unfold State.onFrame
  split
  · exact hact x _
  · rfl

theorem State.withHost_inFrame {p : PortId} {act act' leaves leaves' : Port → FrameRec → State}
    (hact : ∀ x f, act' x f = (act x f).withHost a n) (hleaves : ∀ x f, leaves' x f = (leaves x f).withHost a n) :
    (s.withHost a n).inFrame p act' leaves' = (s.inFrame p act leaves).withHost a n :=
  s.withHost_event (s.withHost_onFrame hact) (s.withHost_onFrame hleaves)

/-! ### Submission rings (chapter 7) -/

@[simp] theorem State.withHost_stage (r : SubId) (d : Desc) (payload : List Byte) :
    (s.withHost a n).stage r d payload = (s.stage r d payload).withHost a n := by
  simp [State.stage]

@[simp] theorem State.withHost_takeDescriptor (r : SubId) (bytes : List Byte) :
    (s.withHost a n).takeDescriptor r bytes = (s.takeDescriptor r bytes).withHost a n := by
  unfold State.takeDescriptor
  split <;> simp

@[simp] theorem State.withHost_refuseInSlot (r : SubId) (b : Bool) :
    (s.withHost a n).refuseInSlot r b = (s.refuseInSlot r b).withHost a n := by
  unfold State.refuseInSlot
  simp only [State.withHost_sub, State.withHost_port, State.withHost_setPort, State.ite_withHost]
  split
  · split
    · split <;> rfl
    · rfl
  · rfl

@[simp] theorem State.withHost_abortStaged (r : SubId) (b : Bool) :
    (s.withHost a n).abortStaged r b = (s.abortStaged r b).withHost a n := by
  unfold State.abortStaged
  simp only [State.withHost_stagedOf, State.withHost_latched, State.withHost_sub, State.withHost_setSub,
    State.withHost_completeAnswer, State.ite_withHost, State.withHost_completeExec, State.withHost_refuseInSlot]
  split
  · rfl
  · split
    · rfl
    · split <;> rfl

@[simp] theorem State.withHost_recordWritten (r : SubId) :
    (s.withHost a n).recordWritten r = (s.recordWritten r).withHost a n := by
  simp [State.recordWritten]

/-! ### Administration of ports and recovery (chapter 2) -/

/-- A PORT_CONTROL, where what its sub-command does commutes with the change of the two parts. -/
theorem State.withHost_portControl {k : Nat} {act act' : PortId → State}
    (hact : ∀ p, act' p = (act p).withHost a n) :
    (s.withHost a n).portControl k act' = (s.portControl k act).withHost a n := by
  simp only [State.portControl, State.withHost_freshCmd, State.withHost_finishAdmin, hact, State.ite_withHost]
  split
  · split <;> rfl
  · rfl

@[simp] theorem State.withHost_closeQuery (p : PortId) (q : QueryDetails) (y : ExpiryAnswer) (reason :
    CloseReason) (bck : Level) :
    (s.withHost a n).closeQuery p q y reason bck = (s.closeQuery p q y reason bck).withHost a n := by
  simp [State.closeQuery]

@[simp] theorem State.withHost_endRecover (p : PortId) (status : Status) :
    (s.withHost a n).endRecover p status = (s.endRecover p status).withHost a n := by
  simp [State.endRecover]

@[simp] theorem State.withHost_recovered (p : PortId) (x : Port) :
    (s.withHost a n).recovered p x = (s.recovered p x).withHost a n := by
  simp [State.recovered]

@[simp] theorem State.withHost_handOverStuck (p : PortId) (x : Port) :
    (s.withHost a n).handOverStuck p x = (s.handOverStuck p x).withHost a n := by
  unfold State.handOverStuck
  split
  · split <;> simp
  · rfl

@[simp] theorem State.withHost_recoveryFails (p : PortId) (x : Port) :
    (s.withHost a n).recoveryFails p x = (s.recoveryFails p x).withHost a n := by
  simp [State.recoveryFails]

/-! ### The target side of a frame (chapters 2, 5 and 6) -/

@[simp] theorem State.withHost_receiverJudges (p : PortId) (x : Port) (f : FrameRec) (h : Header) :
    (s.withHost a n).receiverJudges p x f h = (s.receiverJudges p x f h).withHost a n := by
  unfold State.receiverJudges
  split
  · simp
  · split <;> simp

@[simp] theorem State.withHost_giveVerdict (p : PortId) (f : FrameRec) (v : ServiceRec) (y : HeaderVerdict) :
    (s.withHost a n).giveVerdict p f v y = (s.giveVerdict p f v y).withHost a n := by
  simp [State.giveVerdict]

@[simp] theorem State.withHost_deliverVerdict (p : PortId) (f : FrameRec) (v : ServiceRec) (h : Candidate) :
    (s.withHost a n).deliverVerdict p f v h = (s.deliverVerdict p f v h).withHost a n := by
  unfold State.deliverVerdict
  simp only [State.withHost_rcv, State.withHost_reserve, State.withHost_giveVerdict]
  split
  · rfl
  · split <;> rfl
  · rfl

@[simp] theorem State.withHost_replySlotVerdict (p : PortId) (f : FrameRec) (v : ServiceRec) (h : Candidate) :
    (s.withHost a n).replySlotVerdict p f v h = (s.replySlotVerdict p f v h).withHost a n := by
  simp [State.replySlotVerdict]

@[simp] theorem State.withHost_deferVerdict (p : PortId) (f : FrameRec) (v : ServiceRec) (h : Candidate) :
    (s.withHost a n).deferVerdict p f v h = (s.deferVerdict p f v h).withHost a n := by
  simp [State.deferVerdict]

@[simp] theorem State.withHost_decideVerdict (p : PortId) (f : FrameRec) (v : ServiceRec) :
    (s.withHost a n).decideVerdict p f v = (s.decideVerdict p f v).withHost a n := by
  unfold State.decideVerdict
  split <;> simp

@[simp] theorem State.withHost_receiverBreaks (p : PortId) (f : FrameRec) (low : Option Time) :
    (s.withHost a n).receiverBreaks p f low = (s.receiverBreaks p f low).withHost a n := by
  simp [State.receiverBreaks]

@[simp] theorem State.withHost_reachTurnaround (p : PortId) (f : FrameRec) (v : ServiceRec) (last : Level) :
    (s.withHost a n).reachTurnaround p f v last = (s.reachTurnaround p f v last).withHost a n := by
  unfold State.reachTurnaround
  split
  · split <;> simp
  · simp

@[simp] theorem State.withHost_afterAccept (p : PortId) (f : FrameRec) (v : ServiceRec) (i : Nat) (last : Level) :
    (s.withHost a n).afterAccept p f v i last = (s.afterAccept p f v i last).withHost a n := by
  simp [State.afterAccept]

@[simp] theorem State.withHost_replySlotRead (p : PortId) (f : FrameRec) (i : Nat) (reading : SlotReading) (last
    : Level) :
    (s.withHost a n).replySlotRead p f i reading last = (s.replySlotRead p f i reading last).withHost a n := by
  unfold State.replySlotRead
  simp only [State.withHost_port, State.withHost_setFrame, State.withHost_driveBda, State.withHost_abortPending,
    State.ite_withHost]
  split <;> rfl

@[simp] theorem State.withHost_servingSlot (p : PortId) (f : FrameRec) (v : ServiceRec) (reading : SlotReading)
    (last : Level) :
    (s.withHost a n).servingSlot p f v reading last = (s.servingSlot p f v reading last).withHost a n := by
  unfold State.servingSlot
  split <;> simp

@[simp] theorem State.withHost_servingCloses (p : PortId) (f : FrameRec) (v : ServiceRec) :
    (s.withHost a n).servingCloses p f v = (s.servingCloses p f v).withHost a n := by
  simp [State.servingCloses]

/-! ### The initiator (chapters 1 to 3) -/

@[simp] theorem State.withHost_refusedReplyGoesOn (p : PortId) (f : FrameRec) (r : SubId) (d : Desc) (i : Nat)
    (last : Level) :
    (s.withHost a n).refusedReplyGoesOn p f r d i last = (s.refusedReplyGoesOn p f r d i last).withHost a n := by
  simp [State.refusedReplyGoesOn]

@[simp] theorem State.withHost_initiatorGoes (p : PortId) (f : FrameRec) (bda : Driver) (last : Level) :
    (s.withHost a n).initiatorGoes p f bda last = (s.initiatorGoes p f bda last).withHost a n := by
  simp [State.initiatorGoes]

@[simp] theorem State.withHost_initiatorSlot (p : PortId) (f : FrameRec) (r : SubId) (d : Desc) (reading :
    SlotReading) (last : Level) :
    (s.withHost a n).initiatorSlot p f r d reading last = (s.initiatorSlot p f r d reading last).withHost a n := by
  unfold State.initiatorSlot
  split <;> simp

@[simp] theorem State.withHost_takeReplyByte (p : PortId) (f : FrameRec) (r : SubId) (i : Nat) (byte : Byte) :
    (s.withHost a n).takeReplyByte p f r i byte = (s.takeReplyByte p f r i byte).withHost a n := by
  unfold State.takeReplyByte
  simp only [State.withHost_execOf, State.withHost_mustClose, State.withHost_port, State.withHost_setFrame,
    State.withHost_driveBda, State.withHost_setExec, State.ite_withHost]
  split <;> rfl

@[simp] theorem State.withHost_frameBreaks (p : PortId) (x : Port) (f : FrameRec) (low : Option Time) :
    (s.withHost a n).frameBreaks p x f low = (s.frameBreaks p x f low).withHost a n := by
  unfold State.frameBreaks
  split <;> simp

end Sys2Proof.Machine
end

section
/-!
PROOFS. The commands that reach neither SETUP_ADDRESS nor the notes, one lemma for each: it acts in the same way
whatever the two hold, and keeps them (for O5 and O6).
-/
namespace Sys2Proof.Machine

/-- A command acts in the same way whatever the setup address and the notes hold, and keeps both. -/
def IgnoresHost (m : State → Answer) : Prop :=
  ∀ (s t : State) (a : Addr) (n : Notes), m s = .next t → m (s.withHost a n) = .next (t.withHost a n)

theorem IgnoresHost.of_next {f : State → State}
    (h : ∀ (s : State) (a : Addr) (n : Notes), f (s.withHost a n) = (f s).withHost a n) :
    IgnoresHost fun s => .next (f s) := by
  rintro s t a n hs
  obtain rfl : f s = t := Host.Outcome.next.inj hs
  exact congrArg Host.Outcome.next (h s a n)

/-! ### Engine control and submission rings (chapters 7 and 10) -/

theorem execIgnoredRegisterWrite_ignoresHost (word : Fin 8) (enables : BitVec 4) (value : Word32) :
    IgnoresHost (execIgnoredRegisterWrite word enables value) := .of_next fun _ _ _ => rfl

theorem execSetupReadEnd_ignoresHost (read : ReadEnd) : IgnoresHost (execSetupReadEnd read) :=
    .of_next fun s a n => by
  by_cases h : s.engine = .starting ∧ s.setupRead.isSome
  · cases read with
    | fault => simp [h]
    | data bytes =>
      by_cases hv : (decodeSetup (fitTo 64 bytes)).valid
      · simp only [State.withHost_engine, State.withHost_setupRead, if_pos h, if_pos hv]
        rfl
      · simp [h, hv]
  · simp [h]

theorem execFetchStart_ignoresHost (r : SubId) : IgnoresHost (execFetchStart r) := .of_next fun s a n => by
  simp only [State.withHost_sub, State.withHost_mayFetch, State.withHost_setSub, State.withHost_cpl,
    State.withHost_setCpl, State.ite_withHost]
  split <;> rfl

theorem execSlotReadEnd_ignoresHost (r : SubId) (read : ReadEnd) : IgnoresHost (execSlotReadEnd r read) :=
    .of_next fun s a n => by
  simp only [State.withHost_live, State.withHost_sub, State.withHost_fail, State.withHost_setSub,
    State.withHost_handOver, State.ite_withHost, State.withHost_takeDescriptor]
  split
  · split
    · rfl
    · split <;> rfl
  · rfl

theorem execPayloadReadEnd_ignoresHost (r : SubId) (read : ReadEnd) : IgnoresHost (execPayloadReadEnd r read) :=
    .of_next fun s a n => by
  simp only [State.withHost_live, State.withHost_sub, State.withHost_handOver, State.withHost_stage,
    State.ite_withHost]
  split
  · split
    · split <;> rfl
    · rfl
  · rfl

theorem execDeadlineExpiry_ignoresHost (r : SubId) : IgnoresHost (execDeadlineExpiry r) := .of_next fun s a n => by
  simp only [State.withHost_execOf, State.withHost_live, ↓State.withHost_setTimeBase, State.withHost_timeBase,
    State.withHost_completeExec, State.withHost_setExec]
  split
  · split
    · split <;> rfl
    · rfl
  · rfl

theorem execReplyStoreEnd_ignoresHost (r : SubId) (write : WriteEnd) : IgnoresHost (execReplyStoreEnd r write) :=
    .of_next fun s a n => by
  simp only [State.withHost_execOf, State.withHost_live, State.withHost_completeExec]
  split
  · split
    · split <;> rfl
    · rfl
  · rfl

theorem execUnknownCommand_ignoresHost : IgnoresHost execUnknownCommand := .of_next fun s a n => by
  simp only [State.withHost_freshCmd, State.withHost_finishAdmin]
  split <;> rfl

theorem execCreateSubmissionRing_ignoresHost : IgnoresHost execCreateSubmissionRing := .of_next fun s a n => by
  simp only [State.withHost_freshCmd, State.withHost_finishAdmin, State.withHost_sub, State.withHost_cpl,
    State.withHost_setSub, State.ite_withHost]
  split
  · split
    · rfl
    · split
      · rfl
      · split
        · rfl
        · split
          · rfl
          · split <;> rfl
  · rfl

theorem execDeleteSubmissionRing_ignoresHost (b : Bool) : IgnoresHost (execDeleteSubmissionRing b) :=
    .of_next fun s a n => by
  simp only [State.withHost_freshCmd, State.withHost_finishAdmin, State.withHost_sub, State.withHost_setSub,
    ↓State.withHost_setAdmin, State.ite_withHost, State.withHost_abortStaged]
  split
  · split
    · rfl
    · split
      · rfl
      · split <;> rfl
  · rfl

theorem execAbort_ignoresHost (b : Bool) : IgnoresHost (execAbort b) := .of_next fun s a n => by
  simp only [State.withHost_freshCmd, State.withHost_finishAdmin, State.withHost_sub, State.withHost_stagedOf,
    ↓State.withHost_setAdmin, State.withHost_abortStaged, State.ite_withHost]
  split
  · split
    · rfl
    · split
      · rfl
      · split
        · rfl
        · split <;> rfl
  · rfl

/-! ### Completion rings, vectors and receive rings (chapters 8 and 9) -/

theorem execCompletionWriteStart_ignoresHost (c : CplId) : IgnoresHost (execCompletionWriteStart c) :=
    .of_next fun s a n => by
  simp only [State.withHost_cpl, State.withHost_live, State.withHost_timeBase, State.withHost_setCpl,
    State.ite_withHost]
  split <;> rfl

theorem execCompletionWriteEnd_ignoresHost (c : CplId) (write : WriteEnd) :
    IgnoresHost (execCompletionWriteEnd c write) := .of_next fun s a n => by
  simp only [State.withHost_cpl, State.withHost_live, State.withHost_fail, State.withHost_timeBase,
    State.withHost_setCpl, State.withHost_recordWritten, State.withHost_sendIf, State.withHost_settleHalt]
  split
  · split
    · split <;> rfl
    · rfl
  · rfl

theorem execCoalescingTimer_ignoresHost (ring : RingRef) : IgnoresHost (execCoalescingTimer ring) :=
    .of_next fun s a n => by
  simp only [State.withHost_cpl, State.withHost_live, ↓State.withHost_setTimeBase, State.withHost_timeBase,
    State.withHost_setCpl, State.withHost_sendMessage, State.ite_withHost, State.withHost_rcv, State.withHost_setRcv]
  split <;> split <;> rfl

theorem execMessageWriteEnd_ignoresHost (v : VecId) (write : WriteEnd) : IgnoresHost (execMessageWriteEnd v write) :=
    .of_next fun s a n => by
  simp only [State.withHost_live, State.withHost_messages, ↓State.withHost_setMessages, State.withHost_fail]
  split
  · split <;> rfl
  · rfl

theorem execSetVector_ignoresHost : IgnoresHost execSetVector := .of_next fun s a n => by
  simp only [State.withHost_freshCmd, State.withHost_finishAdmin, State.withHost_vector, State.withHost_setVector,
    State.withHost_sendIf, State.ite_withHost]
  split
  · split <;> rfl
  · rfl

theorem execCreateCompletionRing_ignoresHost : IgnoresHost execCreateCompletionRing := .of_next fun s a n => by
  simp only [State.withHost_freshCmd, State.withHost_finishAdmin, State.withHost_cpl, State.withHost_setCpl,
    State.ite_withHost]
  split
  · split
    · rfl
    · split
      · rfl
      · split
        · rfl
        · split
          · rfl
          · split <;> rfl
  · rfl

theorem execDeleteCompletionRing_ignoresHost : IgnoresHost execDeleteCompletionRing := .of_next fun s a n => by
  simp only [State.withHost_freshCmd, State.withHost_finishAdmin, State.withHost_cpl, State.withHost_completionNamed,
    State.withHost_setCpl, State.ite_withHost]
  split
  · split <;> rfl
  · rfl

theorem execReceiveWriteStart_ignoresHost (r : RcvId) : IgnoresHost (execReceiveWriteStart r) :=
    .of_next fun s a n => by
  simp only [State.withHost_rcv, State.withHost_live, State.withHost_setRcv, State.ite_withHost]
  split <;> rfl

theorem execReceiveWriteEnd_ignoresHost (r : RcvId) (write : WriteEnd) : IgnoresHost (execReceiveWriteEnd r write) :=
    .of_next fun s a n => by
  simp only [State.withHost_rcv, State.withHost_live, State.withHost_fail, State.withHost_timeBase,
    State.withHost_setRcv, State.withHost_sendIf, State.withHost_dropRcv, State.withHost_admin,
    State.withHost_finishAdmin, State.ite_withHost]
  split
  · split
    · split <;> rfl
    · rfl
  · rfl

theorem execCreateReceiveRing_ignoresHost : IgnoresHost execCreateReceiveRing := .of_next fun s a n => by
  simp only [State.withHost_freshCmd, State.withHost_finishAdmin, State.withHost_rcv, State.withHost_setRcv,
    State.ite_withHost]
  split
  · split
    · rfl
    · split
      · rfl
      · split
        · rfl
        · split <;> rfl
  · rfl

theorem execDeleteReceiveRing_ignoresHost : IgnoresHost execDeleteReceiveRing := .of_next fun s a n => by
  simp only [State.withHost_freshCmd, State.withHost_finishAdmin, State.withHost_rcv, State.withHost_entries,
    State.withHost_ports, ↓State.withHost_setPorts, State.withHost_setRcv, State.withHost_dropRcv]
  split
  · split
    · rfl
    · split
      · rfl
      · split
        · rfl
        · split
          · rfl
          · split <;> rfl
  · rfl

/-! ### Administration of ports (chapter 2) -/

theorem execSetPort_ignoresHost : IgnoresHost execSetPort := .of_next fun s a n => by
  simp only [State.withHost_freshCmd, State.withHost_finishAdmin, State.withHost_port, State.withHost_setPort]
  split
  · split
    · rfl
    · split
      · rfl
      · split <;> rfl
  · rfl

theorem execPortControlStart_ignoresHost (bck bda : Level) : IgnoresHost fun s => execPortControlStart s bck bda :=
    .of_next fun s a n => s.withHost_portControl fun p => by
  simp

theorem execPortControlStop_ignoresHost (bck : Level) : IgnoresHost fun s => execPortControlStop s bck :=
    .of_next fun s a n => s.withHost_portControl fun p => by
  cases hx : (s.port p).state with
  | holding => cases hw : (s.port p).window <;> simp [hx, hw, ↓State.withHost_setAdmin]
  | _ => simp [hx, ↓State.withHost_setAdmin]

theorem execPortControlRecover_ignoresHost : IgnoresHost execPortControlRecover :=
    .of_next fun s a n => s.withHost_portControl fun p => by
  simp only [State.withHost_port, State.withHost_timeBase, State.withHost_setPort, State.withHost_count,
    State.withHost_finishAdmin]
  split <;> rfl

theorem execReadPortStats_ignoresHost : IgnoresHost execReadPortStats := .of_next fun s a n => by
  simp only [State.withHost_freshCmd, State.withHost_finishAdmin, ↓State.withHost_setAdmin, State.withHost_port,
    State.ite_withHost]
  split
  · split <;> rfl
  · rfl

theorem execStatsWriteEnd_ignoresHost (write : WriteEnd) : IgnoresHost (execStatsWriteEnd write) :=
    .of_next fun s a n => by
  simp only [State.withHost_admin, State.withHost_live, State.withHost_finishAdmin, State.withHost_port,
    State.withHost_setPort]
  split
  · split
    · split <;> rfl
    · rfl
  · rfl

/-! ### Match table, reply store and health table (chapters 4 to 6) -/

theorem execSetMatch_ignoresHost : IgnoresHost execSetMatch := .of_next fun s a n => by
  simp only [State.withHost_freshCmd, State.withHost_finishAdmin, State.withHost_matchTargetsOk,
    State.withHost_setEntry, State.ite_withHost]
  split
  · split <;> rfl
  · rfl

theorem execClearMatch_ignoresHost : IgnoresHost execClearMatch := .of_next fun s a n => by
  simp only [State.withHost_freshCmd, State.withHost_setEntry, State.withHost_finishAdmin]
  split
  · split <;> rfl
  · rfl

theorem execSetReply_ignoresHost : IgnoresHost execSetReply := .of_next fun s a n => by
  simp only [State.withHost_freshCmd, State.withHost_finishAdmin, State.withHost_setReply, ↓State.withHost_setAdmin,
    State.ite_withHost]
  split
  · split <;> rfl
  · rfl

theorem execSetReplyReadEnd_ignoresHost (read : ReadEnd) : IgnoresHost (execSetReplyReadEnd read) :=
    .of_next fun s a n => by
  simp only [State.withHost_admin, State.withHost_live, State.withHost_finishAdmin, State.withHost_setReply]
  split
  · split
    · split <;> rfl
    · rfl
  · rfl

theorem execClearReply_ignoresHost : IgnoresHost execClearReply := .of_next fun s a n => by
  simp only [State.withHost_freshCmd, State.withHost_setReply, State.withHost_finishAdmin]
  split
  · split <;> rfl
  · rfl

theorem execClearHealth_ignoresHost : IgnoresHost execClearHealth := .of_next fun s a n => by
  simp only [State.withHost_freshCmd, State.withHost_finishAdmin, State.withHost_healthEntry,
    ↓State.withHost_setHealth, State.withHost_health, State.ite_withHost]
  split
  · split <;> rfl
  · rfl

theorem execReadHealth_ignoresHost : IgnoresHost execReadHealth := .of_next fun s a n => by
  simp only [State.withHost_freshCmd, State.withHost_finishAdmin, State.withHost_health, ↓State.withHost_setAdmin,
    State.ite_withHost]
  split <;> rfl

theorem execHealthWriteEnd_ignoresHost (write : WriteEnd) : IgnoresHost (execHealthWriteEnd write) :=
    .of_next fun s a n => by
  simp only [State.withHost_admin, State.withHost_live, State.withHost_finishAdmin]
  split
  · split
    · split <;> rfl
    · rfl
  · rfl

/-! ### The scheduler and the header (chapters 1 and 3) -/

theorem execSchedulerChoice_ignoresHost (p : PortId) (opens : Bool) :
    IgnoresHost fun s => execSchedulerChoice p s opens := .of_next fun s a n => by
  simp only [State.withHost_engine, State.withHost_port, State.withHost_pick, State.withHost_execOf,
    State.withHost_beginTurn, State.withHost_openFrame, State.ite_withHost, State.withHost_live,
    State.withHost_stagedOf]
  split
  · split
    · split <;> rfl
    · rfl
  · split
    · split
      · split <;> rfl
      · rfl
    · rfl

theorem execOpening_ignoresHost (p : PortId) : IgnoresHost (execOpening p) := .of_next fun s a n => by
  refine s.withHost_event (fun x => ?_) fun _ => rfl
  split
  · simp
  · split
    · split <;> simp
    · rfl
  · simp
  · rfl

theorem execArbitrationLoss_ignoresHost (p : PortId) (bit : Fin 24) : IgnoresHost (execArbitrationLoss p bit) :=
    .of_next fun s a n => by
  refine s.withHost_inFrame (fun x f => ?_) fun x f => ?_
  · split <;> simp
  · simp

theorem execHeaderJudgement_ignoresHost (p : PortId) (wire : Header) : IgnoresHost (execHeaderJudgement p wire) :=
    .of_next fun s a n => by
  refine s.withHost_inFrame (fun x f => ?_) fun _ _ => rfl
  simp only [State.withHost_setPort, State.withHost_port, State.withHost_setFrame, State.withHost_execOf,
    State.withHost_setExec, State.withHost_receiverJudges]
  split
  · split
    · split <;> rfl
    · rfl
    · rfl
    · rfl
  · rfl

/-! ### Bytes, slots and holds (chapters 1, 2 and 5) -/

theorem execChannelByte_ignoresHost (p : PortId) (byte : Byte) : IgnoresHost (execChannelByte p byte) :=
    .of_next fun s a n => by
  refine s.withHost_inFrame (fun x f => ?_) fun _ _ => rfl
  simp only [State.withHost_port, State.withHost_observeFrame, State.withHost_setFrame, State.ite_withHost,
    State.withHost_sentByte, State.withHost_byteSent]
  split
  · rfl
  · rfl
  · split <;> rfl
  · rfl

theorem execHeaderVerdict_ignoresHost (p : PortId) (length : Byte) : IgnoresHost (execHeaderVerdict p length) :=
    .of_next fun s a n => by
  refine s.withHost_inFrame (fun x f => ?_) fun _ _ => rfl
  simp only [State.withHost_timeBase, State.withHost_receiverBreaks, State.withHost_decideVerdict,
    State.withHost_port, State.withHost_setFrame, State.withHost_sentByte, State.withHost_byteSent]
  split
  · split
    · split
      · rfl
      · split <;> rfl
    · split
      · rfl
      · split <;> rfl
    · split <;> rfl
    · rfl
  · rfl

theorem execByteReceived_ignoresHost (p : PortId) (byte : Byte) : IgnoresHost (execByteReceived p byte) :=
    .of_next fun s a n => by
  refine s.withHost_inFrame (fun x f => ?_) fun _ _ => rfl
  simp only [State.withHost_port, State.withHost_setFrame, State.withHost_driveBda, State.withHost_observeFrame,
    State.withHost_sentByte, State.withHost_byteSent]
  split
  · rfl
  · rfl
  · rfl
  · rfl
  · split <;> rfl
  · rfl

theorem execAcknowledgeSlot_ignoresHost (p : PortId) (presence verdict : Level) :
    IgnoresHost (execAcknowledgeSlot p presence verdict) := .of_next fun s a n => by
  refine s.withHost_inFrame (fun x f => ?_) fun _ _ => rfl
  simp only [State.withHost_stagedOf, State.withHost_initiatorSlot, State.withHost_servingSlot, State.withHost_port,
    State.withHost_setFrame]
  split
  · split <;> rfl
  · rfl
  · rfl
  · rfl

theorem execTurnaroundSlot_ignoresHost (p : PortId) (presence verdict : Level) :
    IgnoresHost (execTurnaroundSlot p presence verdict) := .of_next fun s a n => by
  refine s.withHost_inFrame (fun x f => ?_) fun _ _ => rfl
  simp only [State.withHost_initiatorGoes, State.withHost_turnaroundReply, State.withHost_port,
    State.withHost_setFrame, State.withHost_driveBda, State.withHost_observeFrame]
  split
  · rfl
  · split <;> rfl
  · rfl
  · rfl
  · rfl

theorem execReplyLengthByte_ignoresHost (p : PortId) (length : Byte) : IgnoresHost (execReplyLengthByte p length) :=
    .of_next fun s a n => by
  refine s.withHost_inFrame (fun x f => ?_) fun _ _ => rfl
  simp only [State.withHost_initiatorGoes, State.withHost_port, State.withHost_setFrame, State.withHost_sentByte,
    State.withHost_byteSent]
  split
  · rfl
  · rfl
  · split
    · rfl
    · split <;> rfl
  · rfl

theorem execReplyByte_ignoresHost (p : PortId) (byte : Byte) : IgnoresHost (execReplyByte p byte) :=
    .of_next fun s a n => by
  refine s.withHost_inFrame (fun x f => ?_) fun _ _ => rfl
  simp only [State.withHost_takeReplyByte, State.withHost_port, State.withHost_setFrame, State.withHost_sentByte,
    State.withHost_byteSent]
  split
  · rfl
  · rfl
  · split
    · rfl
    · split <;> rfl
  · rfl

theorem execOverridden_ignoresHost (p : PortId) (bit : Fin 8) : IgnoresHost fun s => execOverridden p s bit :=
    .of_next fun s a n => by
  refine s.withHost_inFrame (fun x f => ?_) fun x f => ?_
  · simp
  · simp

theorem execHold_ignoresHost (p : PortId) (bit : Fin 8) : IgnoresHost fun s => execHold p s bit :=
    .of_next fun s a n => by
  refine s.withHost_inFrame (fun x f => ?_) fun x f => ?_
  · split <;> simp
  · simp only [State.withHost_leavesFrame, State.withHost_timeBase, State.withHost_bdaInBit, State.withHost_setPort]
    split
    · rfl
    · split <;> rfl

theorem execHoldCeilingPassed_ignoresHost (p : PortId) : IgnoresHost (execHoldCeilingPassed p) :=
    .of_next fun s a n => by
  refine s.withHost_event (s.withHost_onFrame fun x f => ?_) fun _ => rfl
  simp [↓State.withHost_setTimeBase]

/-! ### The ends of frames, stuck lines and recovery (chapters 1 and 2) -/

theorem execClosing_ignoresHost (p : PortId) : IgnoresHost (execClosing p) := .of_next fun s a n => by
  refine s.withHost_event (fun x => ?_) fun _ => rfl
  split
  · simp
  · simp
  · simp
  · split <;> simp
  · split <;> simp
  · simp
  · split <;> simp
  · rfl

theorem execFrameBroken_ignoresHost (p : PortId) (cause : BreakCause) : IgnoresHost (execFrameBroken p cause) :=
    .of_next fun s a n => by
  refine s.withHost_inFrame (fun x f => ?_) fun _ _ => rfl
  simp

theorem execFrameSilence_ignoresHost (p : PortId) (bda : Level) : IgnoresHost (execFrameSilence p bda) :=
    .of_next fun s a n => by
  refine s.withHost_inFrame (fun x f => ?_) fun x f => ?_
  · simp only [↓State.withHost_setTimeBase, State.withHost_timeBase, State.withHost_receiverBreaks]
    split <;> rfl
  · simp

theorem execClash_ignoresHost (p : PortId) (bit : Fin 8) : IgnoresHost fun s => execClash p s bit :=
    .of_next fun s a n => by
  refine s.withHost_inFrame (fun x f => ?_) fun x f => ?_
  · simp only [State.withHost_sentRecessive, State.withHost_count, State.withHost_timeBase, State.withHost_attemptOver,
      State.ite_withHost]
    split <;> rfl
  · simp

theorem execLineGoesLow_ignoresHost (p : PortId) (line : Line) (moment : LineMoment) :
    IgnoresHost fun s => execLineGoesLow p line s moment := .of_next fun s a n => by
  refine s.withHost_event (fun x => ?_) (s.withHost_onFrame fun _ _ => rfl)
  split <;> simp

theorem execIdleGap_ignoresHost (p : PortId) : IgnoresHost (execIdleGap p) := .of_next fun s a n => by
  refine s.withHost_event (fun x => ?_) fun _ => rfl
  simp only [↓State.withHost_setTimeBase, State.withHost_timeBase, State.withHost_setPort, State.ite_withHost,
    State.withHost_recovered]
  split
  · split <;> rfl
  · rfl

theorem execStuckCondition_ignoresHost (p : PortId) (line : Line) : IgnoresHost (execStuckCondition p line) :=
    .of_next fun s a n => by
  refine s.withHost_event (fun x => ?_) fun _ => rfl
  simp only [↓State.withHost_setTimeBase, State.withHost_timeBase, State.withHost_count, State.withHost_handOverStuck,
    State.withHost_setSnapshot, State.withHost_enterOff, State.withHost_inRingOrder, State.withHost_port,
    State.withHost_setPort, State.ite_withHost]
  split <;> rfl

theorem execRecoveryFailed_ignoresHost (p : PortId) (line : Line) :
    IgnoresHost fun s => execRecoveryFailed p s line := .of_next fun s a n => by
  refine s.withHost_event (fun x => ?_) fun _ => rfl
  split
  · simp only [State.withHost_timeBase, ↓State.withHost_setTimeBase, State.withHost_recoveryFails]
    split <;> rfl
  · rfl

theorem execClockPulse_ignoresHost (p : PortId) (bda : Level) : IgnoresHost (execClockPulse p bda) :=
    .of_next fun s a n => by
  refine s.withHost_event (fun x => ?_) fun _ => rfl
  split
  · split
    · split <;> split <;> simp
    · rfl
  · rfl

/-! ### The answer windows (chapter 6) -/

theorem execAnswerTaken_ignoresHost (r : SubId) (bck : Level) : IgnoresHost fun s => execAnswerTaken r s bck :=
    .of_next fun s a n => by
  simp only [State.withHost_stagedOf, State.withHost_sub, State.withHost_live, State.withHost_latched,
    State.withHost_port, State.withHost_timeBase, State.withHost_setPort, State.withHost_completeAnswer,
    State.ite_withHost]
  split
  · split
    · split <;> rfl
    · rfl
  · rfl

theorem execAnswerLimitExpiry_ignoresHost (p : PortId) (bck : Level) :
    IgnoresHost fun s => execAnswerLimitExpiry p s bck := .of_next fun s a n => by
  refine s.withHost_event (fun x => ?_) fun _ => rfl
  simp only [↓State.withHost_setTimeBase, State.withHost_timeBase, State.withHost_closeQuery]
  split <;> rfl

end Sys2Proof.Machine
end

section
/-!
PROOFS. The notes (O5) and SETUP_ADDRESS (O6) over every command: the commands that reach neither by `IgnoresHost`, and
the engine commands, POST, ACK and the resets one by one.
-/
namespace Sys2Proof.Machine

/-! ### The commands that reach neither part -/

/-- The resets, the engine commands, and the writes of SETUP_ADDRESS, POST and ACK: the commands that read or set the
setup address or the notes. -/
def reachesHost : Instr → Bool
  | .powerOn | .pcieLinkReset | .functionLevelReset | .softReset | .enable | .halt | .resume | .clearNotes _
  | .unknownEngineCommand _ | .setupAddressWrite _ _ | .post _ | .ack _ => true
  | _ => false

theorem exec_ignoresHost {c : Instr} (hc : reachesHost c = false) : IgnoresHost (exec c) := by
  cases c with
  | powerOn | pcieLinkReset | functionLevelReset | softReset | enable | halt | resume | clearNotes
  | unknownEngineCommand | setupAddressWrite | post | ack => cases hc
  | ignoredRegisterWrite word enables value => exact execIgnoredRegisterWrite_ignoresHost word enables value
  | setupReadEnd read => exact execSetupReadEnd_ignoresHost read
  | fetchStart r => exact execFetchStart_ignoresHost r
  | slotReadEnd r read => exact execSlotReadEnd_ignoresHost r read
  | payloadReadEnd r read => exact execPayloadReadEnd_ignoresHost r read
  | unknownCommand => exact execUnknownCommand_ignoresHost
  | createSubmissionRing => exact execCreateSubmissionRing_ignoresHost
  | deleteSubmissionRing b => exact execDeleteSubmissionRing_ignoresHost b
  | createCompletionRing => exact execCreateCompletionRing_ignoresHost
  | deleteCompletionRing => exact execDeleteCompletionRing_ignoresHost
  | setVector => exact execSetVector_ignoresHost
  | createReceiveRing => exact execCreateReceiveRing_ignoresHost
  | deleteReceiveRing => exact execDeleteReceiveRing_ignoresHost
  | setPort => exact execSetPort_ignoresHost
  | portControlStart bck bda => exact execPortControlStart_ignoresHost bck bda
  | portControlStop bck => exact execPortControlStop_ignoresHost bck
  | portControlRecover => exact execPortControlRecover_ignoresHost
  | readPortStats => exact execReadPortStats_ignoresHost
  | statsWriteEnd write => exact execStatsWriteEnd_ignoresHost write
  | setMatch => exact execSetMatch_ignoresHost
  | clearMatch => exact execClearMatch_ignoresHost
  | setReply => exact execSetReply_ignoresHost
  | setReplyReadEnd read => exact execSetReplyReadEnd_ignoresHost read
  | clearReply => exact execClearReply_ignoresHost
  | clearHealth => exact execClearHealth_ignoresHost
  | readHealth => exact execReadHealth_ignoresHost
  | healthWriteEnd write => exact execHealthWriteEnd_ignoresHost write
  | abort b => exact execAbort_ignoresHost b
  | schedulerChoice p opens => exact execSchedulerChoice_ignoresHost p opens
  | opening p => exact execOpening_ignoresHost p
  | arbitrationLoss p bit => exact execArbitrationLoss_ignoresHost p bit
  | headerJudgement p wire => exact execHeaderJudgement_ignoresHost p wire
  | channelByte p byte => exact execChannelByte_ignoresHost p byte
  | headerVerdict p length => exact execHeaderVerdict_ignoresHost p length
  | byteReceived p byte => exact execByteReceived_ignoresHost p byte
  | acknowledgeSlot p presence verdict => exact execAcknowledgeSlot_ignoresHost p presence verdict
  | turnaroundSlot p presence verdict => exact execTurnaroundSlot_ignoresHost p presence verdict
  | replyLengthByte p length => exact execReplyLengthByte_ignoresHost p length
  | replyByte p byte => exact execReplyByte_ignoresHost p byte
  | clash p bit => exact execClash_ignoresHost p bit
  | closing p => exact execClosing_ignoresHost p
  | frameBroken p cause => exact execFrameBroken_ignoresHost p cause
  | frameSilence p bda => exact execFrameSilence_ignoresHost p bda
  | idleGap p => exact execIdleGap_ignoresHost p
  | holdCeilingPassed p => exact execHoldCeilingPassed_ignoresHost p
  | stuckCondition p line => exact execStuckCondition_ignoresHost p line
  | recoveryFailed p line => exact execRecoveryFailed_ignoresHost p line
  | answerTaken r bck => exact execAnswerTaken_ignoresHost r bck
  | answerLimitExpiry p bck => exact execAnswerLimitExpiry_ignoresHost p bck
  | deadlineExpiry r => exact execDeadlineExpiry_ignoresHost r
  | replyStoreEnd r write => exact execReplyStoreEnd_ignoresHost r write
  | completionWriteStart k => exact execCompletionWriteStart_ignoresHost k
  | completionWriteEnd k write => exact execCompletionWriteEnd_ignoresHost k write
  | receiveWriteStart r => exact execReceiveWriteStart_ignoresHost r
  | receiveWriteEnd r write => exact execReceiveWriteEnd_ignoresHost r write
  | coalescingTimer ring => exact execCoalescingTimer_ignoresHost ring
  | messageWriteEnd v write => exact execMessageWriteEnd_ignoresHost v write
  | clockPulse p bda => exact execClockPulse_ignoresHost p bda
  | lineGoesLow p line moment => exact execLineGoesLow_ignoresHost p line moment
  | hold p bit => exact execHold_ignoresHost p bit
  | overridden p bit => exact execOverridden_ignoresHost p bit

/-- A command that ignores the two parts keeps them: it may as well have been given the values they hold. -/
theorem IgnoresHost.kept {m : State → Answer} (hm : IgnoresHost m) {s t : State} (h : m s = .next t) :
    t.setupAddress = s.setupAddress ∧ t.notes = s.notes := by
  have hback : m s = .next (t.withHost s.setupAddress s.notes) := hm s t s.setupAddress s.notes h
  rw [Host.Outcome.next.inj (h.symm.trans hback)]
  exact ⟨rfl, rfl⟩

theorem notes_kept {c : Instr} {s t : State} (hc : reachesHost c = false) (h : exec c s = .next t) :
    t.notes = s.notes :=
  ((exec_ignoresHost hc).kept h).2

/-! ### The notes after the commands that set or clear one (R124, R146, R171, R176) -/

section
variable {s t : State}

theorem State.settleHalt_notes (s : State) : s.settleHalt.notes = s.notes := by
  unfold State.settleHalt
  split <;> rfl

theorem State.sendIf_notes (s : State) (b : Bool) (v : VecId) : (s.sendIf b v).notes = s.notes := by
  obtain ⟨_, _, h⟩ := s.sendIf_frame b v
  rw [h]

theorem notes_enable (h : exec .enable s = .next t) :
    t.notes = { s.notes with cmdRejected := s.notes.cmdRejected || s.engine != .disabled } := by
  cases h
  by_cases he : s.engine = .disabled
  · simp only [he, if_pos]
    split <;> simp [State.fail]
  · simp [he, State.rejectCommand]

theorem notes_halt (h : exec .halt s = .next t) :
    t.notes = { s.notes with cmdRejected := s.notes.cmdRejected || s.engine != .running } := by
  cases h
  by_cases he : s.engine = .running <;> simp [he, State.settleHalt_notes, State.rejectCommand]

theorem notes_resume (h : exec .resume s = .next t) :
    t.notes =
      { s.notes with cmdRejected := s.notes.cmdRejected || !(s.engine == .halting || s.engine == .halted) } := by
  cases h
  by_cases he : s.engine = .halting ∨ s.engine = .halted
  · rcases he with he | he <;> simp [he]
  · obtain ⟨hhalting, hhalted⟩ := not_or.1 he
    simp [hhalting, hhalted, State.rejectCommand]

theorem notes_unknownEngineCommand {code : BitVec 4} (hc : (Instr.unknownEngineCommand code).wellFormed = true)
    (h : exec (.unknownEngineCommand code) s = .next t) : t.notes = { s.notes with cmdRejected := true } := by
  cases h
  have hcode : isEngineCommandCode code = false := by simpa [Instr.wellFormed] using hc
  simp [hcode, State.rejectCommand]

theorem postPasses_iff {r : SubId} {i : Nat} :
    PostPasses s r i ↔ (s.live && (s.sub r).state == .active && i < (s.sub r).size) = true := by
  simp [PostPasses, and_assoc]

theorem notes_post {w : Word32} (h : exec (.post w) s = .next t) :
    t.notes =
      { s.notes with
        postRejected := s.notes.postRejected ||
          !(s.live && (s.sub (postRing w)).state == .active && postIndex w < (s.sub (postRing w)).size) } := by
  cases h
  by_cases hp : PostPasses s (postRing w) (postIndex w)
  · obtain ⟨hlive, hactive, hlt⟩ := hp
    simp [hlive, hactive, hlt]
  · rw [Bool.eq_false_of_not_eq_true (mt postPasses_iff.2 hp)]
    unfold PostPasses at hp
    simp [hp]

theorem notes_ack {w : Word32} (h : exec (.ack w) s = .next t) :
    t.notes =
      { s.notes with
        ackRejected := s.notes.ackRejected ||
          match ackRing w with
          | .completion k => !ackTaken s (s.cpl k).state (s.cpl k).size (s.cpl k).tail (s.cpl k).consumer (ackIndex w)
          | .receive k =>
            !ackTaken s (s.rcv k).state (s.rcv k).size (s.rcv k).tail (s.rcv k).consumer (ackIndex w) } := by
  cases h
  cases hw : ackRing w with
  | completion k =>
    cases ht : ackTaken s (s.cpl k).state (s.cpl k).size (s.cpl k).tail (s.cpl k).consumer (ackIndex w) <;>
      simp [ht, State.sendIf_notes, State.rejectAck]
  | receive k =>
    cases ht : ackTaken s (s.rcv k).state (s.rcv k).size (s.rcv k).tail (s.rcv k).consumer (ackIndex w) <;>
      simp [ht, State.sendIf_notes, State.rejectAck]

end

/-- Settles O5: command by command where a note is set or cleared, and by `notes_kept` for every other command. -/
theorem notesChangeOnlyAsStated : Obligations.NotesChangeOnlyAsStated := by
  intro c s t hc h
  cases c with
  | powerOn | pcieLinkReset | functionLevelReset | softReset | clearNotes => cases h; exact ⟨rfl, rfl, rfl⟩
  | enable => rw [notes_enable h]; exact ⟨rfl, rfl, rfl⟩
  | halt => rw [notes_halt h]; exact ⟨rfl, rfl, rfl⟩
  | resume => rw [notes_resume h]; exact ⟨rfl, rfl, rfl⟩
  | unknownEngineCommand => rw [notes_unknownEngineCommand hc h]; exact ⟨rfl, rfl, rfl⟩
  | post => rw [notes_post h]; exact ⟨rfl, rfl, rfl⟩
  | ack => rw [notes_ack h]; exact ⟨rfl, rfl, rfl⟩
  | setupAddressWrite => cases h; exact ⟨rfl, rfl, rfl⟩
  | _ => rw [notes_kept rfl h]; exact ⟨rfl, rfl, rfl⟩

/-! ### SETUP_ADDRESS (R172) -/

/-- The same device, whose setup address is `a`. -/
def State.withSetup (s : State) (a : Addr) : State := { s with setupAddress := a }

/-- A command acts in the same way whatever the setup address holds, and keeps it. -/
def IgnoresSetup (m : State → Answer) : Prop :=
  ∀ (s t : State) (a : Addr), m s = .next t →
    t.setupAddress = s.setupAddress ∧ m (s.withSetup a) = .next (t.withSetup a)

theorem IgnoresSetup.of_next {f : State → State}
    (h : ∀ (s : State) (a : Addr), f (s.withSetup a) = (f s).withSetup a) :
    IgnoresSetup fun s => .next (f s) := by
  rintro s t a hs
  obtain rfl : f s = t := Host.Outcome.next.inj hs
  have hback : f s = (f s).withSetup s.setupAddress := h s s.setupAddress
  refine ⟨?_, congrArg Host.Outcome.next (h s a)⟩
  rw [hback]
  rfl

theorem State.withHost_of_notes {s : State} {a : Addr} {n : Notes} (h : s.notes = n) :
    s.withHost a n = s.withSetup a := by
  subst h
  rfl

theorem IgnoresHost.ignoresSetup {m : State → Answer} (hm : IgnoresHost m) : IgnoresSetup m := by
  intro s t a h
  obtain ⟨hsetup, hnotes⟩ := hm.kept h
  exact ⟨hsetup, State.withHost_of_notes hnotes ▸ hm s t a s.notes h⟩

section
variable {s : State} {a : Addr}

/-- A choice between two next states, each of which is what it was but for the setup address. -/
theorem State.ite_withSetup {c : Prop} [Decidable c] {t u t' u' : State} (ht : t' = t.withSetup a)
    (hu : u' = u.withSetup a) : (if c then t' else u') = (if c then t else u).withSetup a := by
  split
  · exact ht
  · exact hu

theorem State.withSetup_settleHalt : (s.withSetup a).settleHalt = s.settleHalt.withSetup a :=
  State.ite_withSetup rfl rfl

theorem State.withSetup_sendIf (b : Bool) (v : VecId) : (s.withSetup a).sendIf b v = (s.sendIf b v).withSetup a :=
  (s.withHost_sendIf b v).trans (State.withHost_of_notes (s.sendIf_notes b v))

end

theorem execHalt_ignoresSetup : IgnoresSetup execHalt := .of_next fun s _ =>
  State.ite_withSetup (State.withSetup_settleHalt (s := { s with engine := .halting })) rfl

theorem execResume_ignoresSetup : IgnoresSetup execResume := .of_next fun _ _ => State.ite_withSetup rfl rfl

theorem execUnknownEngineCommand_ignoresSetup (code : BitVec 4) : IgnoresSetup (execUnknownEngineCommand code) :=
  .of_next fun _ _ => State.ite_withSetup rfl rfl

theorem execPost_ignoresSetup (w : Word32) : IgnoresSetup (execPost w) :=
  .of_next fun _ _ => State.ite_withSetup rfl rfl

theorem execAck_ignoresSetup (w : Word32) : IgnoresSetup (execAck w) := .of_next fun s a => by
  cases ackRing w with
  | completion k => exact State.ite_withSetup (State.withSetup_sendIf (s := s.setCpl k _) _ _) rfl
  | receive k => exact State.ite_withSetup (State.withSetup_sendIf (s := s.setRcv k _) _ _) rfl

theorem exec_ignoresSetup {c : Instr} (henable : c ≠ .enable) (hpower : c ≠ .powerOn)
    (hwrite : ∀ high v, c ≠ .setupAddressWrite high v) : IgnoresSetup (exec c) := by
  cases c with
  | enable => exact absurd rfl henable
  | powerOn => exact absurd rfl hpower
  | setupAddressWrite high v => exact absurd rfl (hwrite high v)
  | pcieLinkReset | functionLevelReset | softReset => exact .of_next (f := State.softReset) fun _ _ => rfl
  | clearNotes selection => exact .of_next (f := fun s => { s with notes := s.notes.clear selection }) fun _ _ => rfl
  | halt => exact execHalt_ignoresSetup
  | resume => exact execResume_ignoresSetup
  | unknownEngineCommand code => exact execUnknownEngineCommand_ignoresSetup code
  | post w => exact execPost_ignoresSetup w
  | ack w => exact execAck_ignoresSetup w
  | _ => exact (exec_ignoresHost rfl).ignoresSetup

theorem setupAddress_halves (x : Addr) :
    (x.setWidth 32 : Word32) = x.extractLsb' 0 32 ∧ ((x >>> 32).setWidth 32 : Word32) = x.extractLsb' 32 32 := by
  constructor <;> ext i <;> simp

/-- R172: a write replaces its half in any engine state. -/
theorem exec_setupAddressWrite_low (s : State) (value : Word32) :
    exec (.setupAddressWrite false value) s =
      .next { s with setupAddress := s.setupAddress.extractLsb' 32 32 ++ value } := by
  rw [← (setupAddress_halves s.setupAddress).2]
  rfl

/-- R172: a write replaces its half in any engine state. -/
theorem exec_setupAddressWrite_high (s : State) (value : Word32) :
    exec (.setupAddressWrite true value) s =
      .next { s with setupAddress := value ++ s.setupAddress.extractLsb' 0 32 } := by
  rw [← (setupAddress_halves s.setupAddress).1]
  rfl

/-- R173: ENABLE in DISABLED, with an aligned setup address. -/
theorem exec_enable_aligned {s : State} (hdisabled : s.engine = .disabled) (haligned : s.setupAddress.toNat % 64 = 0) :
    exec .enable s = .next { s with engine := .starting, setupRead := some s.setupAddress } :=
  congrArg Host.Outcome.next ((if_pos hdisabled).trans (if_pos (alignedTo_iff.2 haligned)))

/-- Settles O6: the two writes, ENABLE and power-on by their meanings, every other command by `exec_ignoresSetup`. -/
theorem setupAddressKeptAndReadByEnable : Obligations.SetupAddressKeptAndReadByEnable := by
  refine fun s value => ⟨exec_setupAddressWrite_low s value, exec_setupAddressWrite_high s value, ?enable, ?powerOn,
    fun c t a henable hpower hwrite h => exec_ignoresSetup henable hpower hwrite s t a h⟩
  case enable =>
    intro t hdisabled haligned h
    cases h.symm.trans (exec_enable_aligned hdisabled haligned)
    exact ⟨rfl, rfl⟩
  case powerOn =>
    intro t h
    cases h
    rfl

end Sys2Proof.Machine
end

section
/-!
PROOFS. What a command can do to the state, said once: every command but a reset is a run of moves (`Move`), each of which
changes one part under the condition that the model gives it. The invariants of O12 and O54 to O59, and O2 and O52, are then
facts about single moves.
-/
namespace Sys2Proof.Machine
open Sys2Proof.Safety

/-! ### What a happening makes of a port -/

/-- What a happening may make of a port: it keeps the configuration and what the port's state fixes (R23). -/
structure Port.Becomes (x y : Port) : Prop where
  config : y.config = x.config
  shape : PortShape x → PortShape y

/-! ### What a command makes of a submission ring and of a completion's counts -/

/-- R44, R144: the counts of a completion are 0, or those of the execution record of its ring. -/
def Done.CountsFrom (d : Done) (s : State) (r : SubId) : Prop :=
  (d.attempts = 0 ∧ d.losses = 0) ∨ ∃ x e, s.execOf r = some (x, e) ∧ d.attempts = e.attempts ∧ d.losses = e.losses

/-- A submission ring whose indices move, whose payload read begins, that faults or drains, or that an abort is pending on:
what it has staged, where it lies and what it names stay. -/
structure SubRing.Adjusts (k k' : SubRing) : Prop where
  occupancy : k'.occupancy = k.occupancy
  staged : k'.staged = k.staged
  port : k'.port = k.port
  completion : k'.completion = k.completion
  base : k'.base = k.base
  size : k'.size = k.size
  absent : k'.state = .absent ↔ k.state = .absent
  producer : k'.producer = k.producer ∨ k'.producer = k.fetch ∨ k'.producer < k.size
  fetch : k'.fetch = k.fetch ∨ k'.fetch = nextSlot k.size k.fetch

/-- R134, R138: a submission ring whose completion record has been written. -/
def SubRing.released (k : SubRing) : SubRing :=
  { k with occupancy := .empty, reading := none, staged := none, abortPending := false }

/-! ### The moves -/

/-- One move of a command `c`: the change of one part of the state. -/
inductive Move (c : Instr) (s : State) : State → Prop
  | other (notes : Notes) (setupAddress : Addr) (timeBase : Time) (setupRead : Option Addr) (admin : AdminPhase)
      (messages : List Message) (replies : Vector ReplySlot 32) (snapshots : Vector (Option Snapshot) 4) :
      Move c s { s with notes, setupAddress, timeBase, setupRead, admin, messages, replies, snapshots }
  | port (p : PortId) (y : Port) (h : (s.port p).Becomes y) : Move c s (s.setPort p y)
  | ports (g : Port → Port) (h : ∀ x : Port, x.Becomes (g x)) : Move c s { s with ports := s.ports.map g }
  | config (hc : c = .setPort) (p : PortId) (k : PortConfig) : Move c s (s.setPort p { s.port p with config := k })
  | position (hc : ∃ p, c = .schedulerChoice p true) (p : PortId) (q : Fin 8) (n : Nat) :
      Move c s (s.setPosition p q n)
  | entry (hc : c = .setMatch ∨ c = .clearMatch) (i : MatchId) (e : MatchEntry) : Move c s (s.setEntry i e)
  | pended (v : VecId) : Move c s (s.setVector v { s.vector v with pending := true })
  | vector (hc : c = .setVector) (v : VecId) (x : IrqVector) : Move c s (s.setVector v x)
  | engine (h : s.live = true) (e : EngineState) (he : e = .running ∨ e = .halting ∨ e = .halted) :
      Move c s { s with engine := e }
  | starting (h : s.engine = .disabled) (a : Option Addr) : Move c s { s with engine := .starting, setupRead := a }
  | failed (cause : FailureCause) (h : cause ≠ .none) : Move c s (s.fail cause)
  | setup (h : s.engine = .starting) (b : SetupBlock) (hb : b.valid = true) :
      Move c s
        { (s.setSub 0
            { SubRing.reset with state := .active, base := b.adminBase, size := b.adminSize, completion := some 0 }).setCpl 0
            (CplRing.made b.completionBase b.completionSize (Fin.ofNat 16 b.vector) b.threshold b.delay) with
          engine := .running, setupRead := none }
  | targetFailure (p : PortId) (st : Station) : Move c s (s.targetFailure p st)
  | targetSuccess (p : PortId) (st : Station) : Move c s (s.targetSuccess p st)
  | forget (keep : HealthEntry → Bool) : Move c s { s with health := s.health.filter keep }
  | handOver (r : SubId) (d : Done) (h : d.CountsFrom s r) : Move c s (s.handOver r d)
  | setExec (r : SubId) (x : StagedXfer) (e e' : ExecRec) (h : s.execOf r = some (x, e))
      (attempts : e'.attempts = e.attempts ∨ e'.attempts ≤ 15) (losses : e'.losses = e.losses ∨ e'.losses ≤ 255) : Move c s (s.setExec r x e')
  | stage (r : SubId) (y : Staged) (fetch : Nat) (abortPending : Bool) (h : (s.sub r).occupancy = .fetching)
      (hf : fetch = (s.sub r).fetch ∨ fetch = nextSlot (s.sub r).size (s.sub r).fetch)
      (hy : ∀ x, y = .xfer x → ∀ e ∈ x.exec, e.attempts = 0 ∧ e.losses = 0) :
      Move c s
        (s.setSub r
          { s.sub r with occupancy := .staged, reading := none, abortPending, staged := some y, fetch })
  | sub (r : SubId) (k : SubRing) (h : (s.sub r).Adjusts k) : Move c s (s.setSub r k)
  | fetchStart (r : SubId) (k : CplId) (hk : (s.sub r).completion = some k) (h : s.mayFetch r k = true) :
      Move c s
        ((s.setSub r { s.sub r with occupancy := .fetching, reading := some .slot }).setCpl k
          { s.cpl k with reserved := (s.cpl k).reserved + 1 })
  | createSub (r : SubId) (base : Addr) (size : Nat) (port : Option PortId) (priority : Option (Fin 8))
      (completion : Option CplId) (h : (s.sub r).state = .absent) (hl : legalRing size base = true) :
      Move c s (s.setSub r { SubRing.reset with state := .active, base, size, port, priority, completion })
  | dropSub (r : SubId) (h : (s.sub r).occupancy = .empty) : Move c s (s.setSub r .reset)
  | createCpl (k : CplId) (base : Addr) (size : Nat) (v : VecId) (threshold delay : Nat) (h : (s.cpl k).state = .absent)
      (hl : legalRing size base = true) (ht : 1 ≤ threshold ∧ threshold ≤ 255) :
      Move c s (s.setCpl k (CplRing.made base size v threshold delay))
  | dropCpl (k : CplId) (h : s.completionNamed k = false) : Move c s (s.setCpl k .reset)
  | ackCpl (k : CplId) (i : Nat) (left : Bool) (hi : i < (s.cpl k).size)
      (hp : passesTail (s.cpl k).size (s.cpl k).tail (s.cpl k).consumer i = false) :
      Move c s (s.setCpl k { s.cpl k with consumer := i, irq := ((s.cpl k).irq.acked left).1 })
  | fireCpl (k : CplId) : Move c s (s.setCpl k { s.cpl k with irq := (s.cpl k).irq.fire })
  | writingCpl (k : CplId) (w : Option DmaWrite) : Move c s (s.setCpl k { s.cpl k with writing := w })
  | written (k : CplId) (e : CplEntry) (rest : List CplEntry) (now : Time) (y : SubRing) (h : (s.cpl k).queue = e :: rest)
      (hy : y = .reset ∨ y = (s.sub e.ring).released) :
      Move c s
        ((s.setCpl k
          { s.cpl k with
            queue := rest, writing := none, reserved := (s.cpl k).reserved - 1,
            tail := nextSlot (s.cpl k).size (s.cpl k).tail,
            phase := nextPhase (s.cpl k).size (s.cpl k).tail (s.cpl k).phase,
            irq := ((s.cpl k).irq.posted now).1 }).setSub e.ring y)
  | ordered (before : State) : Move c s (s.inRingOrder before)
  | reserve (r : RcvId) (h : (s.rcv r).answer = .granted) : Move c s (s.reserve r)
  | unreserve (r : RcvId) : Move c s (s.setRcv r { s.rcv r with held := (s.rcv r).held - 1 })
  | handRecord (r : RcvId) (e : RcvEntry) (h : (s.rcv r).held ≠ 0) :
      Move c s (s.setRcv r { s.rcv r with held := (s.rcv r).held - 1, queue := (s.rcv r).queue ++ [e] })
  | enqueue (r : RcvId) (e : RcvEntry) (h : (s.rcv r).answer = .granted) :
      Move c s (s.setRcv r { s.rcv r with queue := (s.rcv r).queue ++ [e] })
  | countLost (r : RcvId) : Move c s (s.countLost r)
  | ackRcv (r : RcvId) (i : Nat) (left : Bool) (hi : i < (s.rcv r).size)
      (hp : passesTail (s.rcv r).size (s.rcv r).tail (s.rcv r).consumer i = false) :
      Move c s (s.setRcv r { s.rcv r with consumer := i, irq := ((s.rcv r).irq.acked left).1 })
  | fireRcv (r : RcvId) : Move c s (s.setRcv r { s.rcv r with irq := (s.rcv r).irq.fire })
  | writingRcv (r : RcvId) (w : Option DmaWrite) : Move c s (s.setRcv r { s.rcv r with writing := w, lost := 0 })
  | writtenRcv (r : RcvId) (e : RcvEntry) (rest : List RcvEntry) (now : Time) (h : (s.rcv r).queue = e :: rest) :
      Move c s
        (s.setRcv r
          { s.rcv r with
            queue := rest, writing := none, tail := nextSlot (s.rcv r).size (s.rcv r).tail,
            phase := nextPhase (s.rcv r).size (s.rcv r).tail (s.rcv r).phase, irq := ((s.rcv r).irq.posted now).1 })
  | createRcv (r : RcvId) (base : Addr) (size : Nat) (policy : FullPolicy) (v : VecId) (threshold delay : Nat)
      (hl : legalRing size base = true) (ht : 1 ≤ threshold ∧ threshold ≤ 255) :
      Move c s
        (s.setRcv r
          { RcvRing.reset with
            state := .active, base, size, policy, irq := { Irq.reset with vector := v, threshold, delay } })
  | closeRcv (r : RcvId) : Move c s (s.setRcv r { s.rcv r with held := 0, closing := true })
  | resetRcv (r : RcvId) : Move c s (s.setRcv r .reset)

/-- A run of moves of a command. -/
abbrev Moves (c : Instr) : State → State → Prop := Relation.ReflTransGen (Move c)

end Sys2Proof.Machine
end

section
/-!
PROOFS. What each update of a port makes of it (`Port.Becomes`): its shape (R23, R31, R110) after the
updates of Sys2Proof/Machine/Ops.lean and Frame.lean.
-/
namespace Sys2Proof.Machine
open Sys2Proof.Safety

variable {x y : Port}

/-! ### The shape of a port by its state -/

theorem not_waiting_of_portShape (h : PortShape x) (hs : x.state ≠ .holding) : isWaiting x.window = false := by
  simpa [hs] using h.2

/-- A port whose state has no frame record. -/
theorem portShape_of_no_frame (hs : y.state = .off ∨ y.state = .idle ∨ y.state = .faulted) (hf : y.frame = none)
    (hd : driversReleased y) (hw : isWaiting y.window = false) : PortShape y := by
  rcases hs with hs | hs | hs <;> simpa [PortShape, hs, hf, hw] using hd

theorem portShape_of_recovering (hs : y.state = .recovering) (hf : y.frame = none) (hw : isWaiting y.window = false) :
    PortShape y := by simp [PortShape, hs, hf, hw]

theorem portShape_of_observing {f : FrameRec} (hs : y.state = .observing) (hf : y.frame = some f)
    (hd : driversReleased y) (hr : f.role = .observer) (ht : f.turn = none) (hw : isWaiting y.window = false) :
    PortShape y := by
  simpa [PortShape, hs, hf, hw, hr, ht] using hd

theorem portShape_of_serving {f : FrameRec} (hs : y.state = .serving) (hf : y.frame = some f)
    (hr : f.role = .target ∨ (f.role = .listener ∧ Header.frameKind f.rxHeader = .notice))
    (hw : isWaiting y.window = false) : PortShape y := by
  simpa [PortShape, hs, hf, hw] using hr

/-- R82: the role of a serving port. -/
theorem role_of_serving {f : FrameRec} (h : PortShape x) (hs : x.state = .serving) (hf : x.frame = some f) :
    f.role = .target ∨ (f.role = .listener ∧ Header.frameKind f.rxHeader = .notice) := by
  simpa [PortShape, hs, hf] using h.1

/-- R31: the role of a holding port. -/
theorem role_of_holding {f : FrameRec} (h : PortShape x) (hs : x.state = .holding) (hf : x.frame = some f) :
    f.role = .target := by
  have h1 := h.1
  simp only [hs, hf] at h1
  exact h1.2.2

/-- R31: a holding port has a frame. -/
theorem frame_of_holding (h : PortShape x) (hs : x.state = .holding) : ∃ f, x.frame = some f := by
  cases hf : x.frame with
  | none => simp [PortShape, hs, hf] at h
  | some f => exact ⟨f, rfl⟩

/-! ### Updates that keep the state and the frame's course -/

theorem Port.Becomes.refl : x.Becomes x := ⟨rfl, id⟩

theorem Port.Becomes.trans {z : Port} (h : x.Becomes y) (h' : y.Becomes z) : x.Becomes z :=
  ⟨h'.config.trans h.config, h'.shape ∘ h.shape⟩

/-- A port all of whose parts that the shape speaks of are what they were. -/
theorem Port.Becomes.of_same (config : y.config = x.config) (state : y.state = x.state)
    (bck : y.bckDriver = x.bckDriver) (bda : y.bdaDriver = x.bdaDriver) (frame : y.frame = x.frame)
    (window : y.window = x.window) : x.Becomes y := by
  refine ⟨config, fun h => ?_⟩
  simpa only [PortShape, driversReleased, state, bck, bda, frame, window] using h

/-- A port whose frame record changes, but not in role, header or turn. Only a port with a part of its own in the frame may
drive BDA. -/
theorem Port.Becomes.of_frame {f g : FrameRec} (hf : x.frame = some f) (hg : y.frame = some g)
    (config : y.config = x.config) (state : y.state = x.state) (bck : y.bckDriver = x.bckDriver)
    (bda : y.bdaDriver = x.bdaDriver ∨ x.state = .initiating ∨ x.state = .serving) (window : y.window = x.window)
    (role : g.role = f.role) (header : g.rxHeader = f.rxHeader) (turn : g.turn = f.turn) :
    x.Becomes y := by
  refine ⟨config, fun h => ?_⟩
  rcases bda with bda | hs | hs
  · simp only [PortShape, driversReleased, state, bck, bda, hf, hg, window] at h ⊢
    cases hs : x.state <;> simpa only [hs, role, header, turn] using h
  · simpa [PortShape, state, hs, hf, hg, role, turn, window] using h
  · simpa [PortShape, state, hs, hf, hg, role, header, window] using h

/-- A port that has no frame record and whose drivers change: it is recovering. -/
theorem Port.Becomes.of_recovering (config : y.config = x.config) (state : y.state = x.state)
    (hs : x.state = .recovering) (frame : y.frame = x.frame) (window : y.window = x.window) :
    x.Becomes y := by
  refine ⟨config, fun h => ?_⟩
  simp only [PortShape, state, hs, frame, window] at h ⊢
  cases hf : x.frame <;> simpa only [hf] using h

/-- R21: a rise of BCK. -/
theorem Port.becomes_clocked (now : Time) (last : Level) (bit : Nat) : x.Becomes (x.clocked now last bit) :=
  .of_same rfl rfl rfl rfl rfl rfl

/-- R110: a window that does not wait is closed. -/
theorem Port.becomes_closeWindow (hw : isWaiting x.window = false) : x.Becomes { x with window := .none } := by
  refine ⟨rfl, fun h => ⟨h.1, ?_⟩⟩
  have hs := h.2
  rw [hw] at hs
  exact hs

/-! ### Updates that take a port to another state -/


section
variable (hs : x.state ≠ .holding)

theorem Port.becomes_goOff : x.Becomes x.goOff :=
  ⟨rfl, fun _ => portShape_of_no_frame (.inl rfl) rfl ⟨rfl, rfl⟩ rfl⟩

include hs

theorem Port.becomes_toIdle (idle : Option Time) : x.Becomes (x.toIdle idle) :=
  ⟨rfl, fun h => portShape_of_no_frame (.inr (.inl rfl)) rfl ⟨rfl, rfl⟩ (not_waiting_of_portShape (x := x) h hs)⟩

theorem Port.becomes_endFrame (now : Time) (low : Option Time) : x.Becomes (x.endFrame now low) :=
  ⟨rfl, fun h => portShape_of_no_frame (.inr (.inl rfl)) rfl ⟨rfl, rfl⟩ (not_waiting_of_portShape (x := x) h hs)⟩

theorem Port.becomes_toFaulted : x.Becomes x.toFaulted :=
  ⟨rfl, fun h => portShape_of_no_frame (.inr (.inr rfl)) rfl ⟨rfl, rfl⟩ (not_waiting_of_portShape (x := x) h hs)⟩

theorem Port.becomes_toRecovering (now : Time) : x.Becomes (x.toRecovering now) :=
  ⟨rfl, fun h => portShape_of_recovering rfl rfl (not_waiting_of_portShape (x := x) h hs)⟩

theorem Port.becomes_seeOpening (now : Time) : x.Becomes (x.seeOpening now) :=
  ⟨rfl, fun h => portShape_of_observing rfl rfl ⟨rfl, rfl⟩ rfl rfl (not_waiting_of_portShape (x := x) h hs)⟩

theorem Port.becomes_toObserving {f : FrameRec} : x.Becomes (x.toObserving f) :=
  ⟨rfl, fun h => portShape_of_observing rfl rfl ⟨rfl, rfl⟩ rfl rfl (not_waiting_of_portShape (x := x) h hs)⟩

end

end Sys2Proof.Machine
end

section
/-!
PROOFS. The shared operations as runs of moves.
-/
namespace Sys2Proof.Machine
open Sys2Proof.Safety

variable {c : Instr} {s t : State}

/-! ### Single moves -/

namespace Moves

theorem setPort {p : PortId} {y : Port} (h : Moves c s t) (hy : (t.port p).Becomes y) : Moves c s (t.setPort p y) :=
  h.tail (.port p y hy)

theorem setSnapshot {p : PortId} {x : Option Snapshot} (h : Moves c s t) : Moves c s (t.setSnapshot p x) :=
  h.tail (.other ..)

theorem setReply {i : SlotId} {x : ReplySlot} (h : Moves c s t) : Moves c s (t.setReply i x) := h.tail (.other ..)

theorem setAdmin {a : AdminPhase} (h : Moves c s t) : Moves c s { t with admin := a } := h.tail (.other ..)

theorem setTime {now : Time} (h : Moves c s t) : Moves c s { t with timeBase := now } := h.tail (.other ..)

theorem setMessages {l : List Message} (h : Moves c s t) : Moves c s { t with messages := l } := h.tail (.other ..)

theorem setNotes {n : Notes} (h : Moves c s t) : Moves c s { t with notes := n } := h.tail (.other ..)

theorem count {p : PortId} {n : Counter} (h : Moves c s t) : Moves c s (t.count p n) :=
  h.setPort (.of_same rfl rfl rfl rfl rfl rfl)

theorem setSub {r : SubId} {k : SubRing} (h : Moves c s t) (hk : (t.sub r).Adjusts k) : Moves c s (t.setSub r k) :=
  h.tail (.sub r k hk)

theorem setExec {r : SubId} {x : StagedXfer} {e e' : ExecRec} (h : Moves c s t) (he : t.execOf r = some (x, e))
    (attempts : e'.attempts = e.attempts ∨ e'.attempts ≤ 15) (losses : e'.losses = e.losses ∨ e'.losses ≤ 255) :
    Moves c s (t.setExec r x e') := h.tail (.setExec r x e e' he attempts losses)

/-- An execution record whose counts stay. -/
theorem setExec_same {r : SubId} {x : StagedXfer} {e e' : ExecRec} (h : Moves c s t) (he : t.execOf r = some (x, e))
    (attempts : e'.attempts = e.attempts) (losses : e'.losses = e.losses) : Moves c s (t.setExec r x e') :=
  h.setExec he (.inl attempts) (.inl losses)

theorem fail {cause : FailureCause} (h : Moves c s t) (hc : cause ≠ .none) : Moves c s (t.fail cause) :=
  h.tail (.failed cause hc)

theorem reserve {r : RcvId} (h : Moves c s t) (hr : (t.rcv r).answer = .granted) : Moves c s (t.reserve r) :=
  h.tail (.reserve r hr)

theorem countLost {r : RcvId} (h : Moves c s t) : Moves c s (t.countLost r) := h.tail (.countLost r)

theorem inRingOrder {before : State} (h : Moves c s t) : Moves c s (t.inRingOrder before) := h.tail (.ordered before)

/-! ### Messages, completions and the health table (R134, R151, R71 to R74) -/

theorem sendMessage {v : VecId} (h : Moves c s t) : Moves c s (t.sendMessage v) := by
  unfold State.sendMessage
  dsimp only
  split
  · exact h.tail (.pended v)
  · exact h.setMessages

theorem sendIf {b : Bool} {v : VecId} (h : Moves c s t) : Moves c s (t.sendIf b v) := by
  cases b
  · exact h
  · exact h.sendMessage

theorem handOver {r : SubId} {d : Done} (h : Moves c s t) (hd : d.CountsFrom t r) : Moves c s (t.handOver r d) :=
  h.tail (.handOver r d hd)

theorem finishAdmin {status : Status} {result : Word32} (h : Moves c s t) : Moves c s (t.finishAdmin status result) :=
  (h.handOver (.inl ⟨rfl, rfl⟩)).setAdmin

theorem complete {r : SubId} {d : Done} (h : Moves c s t) (hd : d.CountsFrom t r) : Moves c s (t.complete r d) := by
  unfold State.complete
  dsimp only
  split
  · split
    · exact (h.handOver hd).finishAdmin
    · exact h.handOver hd
  · exact h.handOver hd

theorem tellHealth {p : PortId} {d : Desc} {status : Status} (h : Moves c s t) : Moves c s (t.tellHealth p d status) := by
  have failure : Moves c s (t.targetFailure p d.dest) := h.tail (.targetFailure p d.dest)
  have success : Moves c s (t.targetSuccess p d.dest) := h.tail (.targetSuccess p d.dest)
  unfold State.tellHealth
  split
  · split
    exacts [failure, failure, failure, failure, success, success, h]
  · exact h

end Moves

/-- R62: what an outcome changes leaves the submission rings as they were. -/
theorem State.tellHealth_subs (s : State) (p : PortId) (d : Desc) (status : Status) :
    (s.tellHealth p d status).subs = s.subs := by
  have failure : (s.targetFailure p d.dest).subs = s.subs := by
    unfold State.targetFailure
    dsimp only
    split
    · rfl
    · split_ifs <;> rfl
  have success : (s.targetSuccess p d.dest).subs = s.subs := by
    obtain ⟨_, h⟩ := s.targetSuccess_frame p d.dest
    rw [h]
  unfold State.tellHealth
  split
  · split
    exacts [failure, failure, failure, failure, success, success, rfl]
  · rfl

theorem State.execOf_of_subs (h : t.subs = s.subs) (r : SubId) : t.execOf r = s.execOf r := by
  simp only [State.execOf, State.stagedOf, State.sub, h]

namespace Moves

theorem completeExec {r : SubId} {status : Status} {n : Nat} (h : Moves c s t) :
    Moves c s (t.completeExec r status n) := by
  unfold State.completeExec
  split
  · rename_i x e p he _
    refine h.tellHealth.complete (.inr ⟨x, e, ?_, rfl, rfl⟩)
    rw [State.execOf_of_subs (t.tellHealth_subs p x.desc status), he]
  · exact h

theorem completeAnswer {r : SubId} {status : Status} {n : Nat} (h : Moves c s t) :
    Moves c s (t.completeAnswer r status n) := by
  unfold State.completeAnswer
  split
  · exact h.complete (.inl ⟨rfl, rfl⟩)
  · exact h

/-! ### First consideration and the schedulers (R45 to R47) -/

theorem healthCheck {r : SubId} {p : PortId} {x : StagedXfer} {e : ExecRec} (h : Moves c s t)
    (he : t.execOf r = some (x, e)) : Moves c s (t.healthCheck r p x e) := by
  have set : ∀ e', e'.attempts = e.attempts → e'.losses = e.losses → Moves c s (t.setExec r x e') :=
    fun e' => h.setExec_same he
  unfold State.healthCheck
  dsimp only
  split
  · exact set _ rfl rfl
  · split
    · split
      · exact set _ rfl rfl
      · exact h.completeExec
    · exact set _ rfl rfl
    · exact set _ rfl rfl
    · exact set _ rfl rfl

theorem consider {r : SubId} (h : Moves c s t) : Moves c s (t.consider r) := by
  unfold State.consider
  split
  · rename_i he
    split
    · exact h.completeExec
    · exact h.completeExec
    · exact h.setExec_same he rfl rfl
    · exact h.healthCheck he
  · exact h

theorem recheckHeld {p : PortId} (h : Moves c s t) : Moves c s (t.recheckHeld p) := by
  refine List.foldlRecOn (motive := Moves c s) _ _ h fun u hu r _ => ?_
  split
  · split
    · exact hu.healthCheck ‹_›
    · exact hu
  · exact hu

theorem portDown {p : PortId} (h : Moves c s t) : Moves c s (t.portDown p) := by
  refine List.foldlRecOn (motive := Moves c s) _ _ h fun u hu r _ => ?_
  split
  · split
    · exact hu.completeExec
    · exact hu
  · exact hu

/-! ### Receive rings and records (R106, R115, R158, R159) -/

theorem release {res : Option RcvId} (h : Moves c s t) : Moves c s (t.release res) := by
  cases res with
  | none => exact h
  | some r => exact h.tail (.unreserve r)

theorem handRecord {r : RcvId} {e : RcvEntry} (h : Moves c s t) : Moves c s (t.handRecord r e) := by
  unfold State.handRecord
  dsimp only
  split
  · exact h
  · exact h.tail (.handRecord r e ‹_›)

theorem claimAtPosting {r : RcvId} {e : RcvEntry} (h : Moves c s t) : Moves c s (t.claimAtPosting r e) := by
  unfold State.claimAtPosting
  split
  · exact h.tail (.enqueue r e ‹_›)
  · exact h.countLost
  · exact h

theorem slotNote {p : PortId} {kind : RecordKind} {hit : Candidate} {f : FrameRec} {n : Nat} (h : Moves c s t) :
    Moves c s (t.slotNote p kind hit f n) := by
  unfold State.slotNote
  split
  · exact h
  · exact h.claimAtPosting

theorem queryClosed {p : PortId} {q : QueryDetails} {reason : CloseReason} (h : Moves c s t) :
    Moves c s (t.queryClosed p q reason) := h.claimAtPosting

/-! ### Ends of turns and attempts, and of service (R52 to R57, R95 to R97) -/

theorem returnTurn {r : SubId} (h : Moves c s t) : Moves c s (t.returnTurn r) := by
  unfold State.returnTurn
  split
  · exact h
  · rename_i he
    split_ifs
    exacts [h.completeExec, h.completeExec, h.setExec_same he rfl rfl]

theorem loseTurn {r : SubId} {patience : Nat} (h : Moves c s t) : Moves c s (t.loseTurn r patience) := by
  unfold State.loseTurn
  split
  · exact h
  · rename_i x e he
    have lost : Moves c s (t.setExec r x { e with losses := saturate 255 e.losses, state := .eligible }) :=
      h.setExec he (.inl rfl) (.inr (saturate_le 255 e.losses))
    dsimp only
    split_ifs
    exacts [lost.completeExec, lost.completeExec, lost.completeExec, lost]

theorem endAttempt {r : SubId} {got : Option AttemptResult} {moved : Nat} (h : Moves c s t) :
    Moves c s (t.endAttempt r got moved) := by
  unfold State.endAttempt
  split
  · exact h
  · rename_i x e he
    have ended : ∀ e', e'.attempts = saturate Config.countCap e.attempts → e'.losses = e.losses →
        Moves c s (t.setExec r x e') := fun e' ha hl =>
      h.setExec he (.inr (ha ▸ saturate_le Config.countCap e.attempts)) (.inl hl)
    dsimp only
    split_ifs
    exacts [completeExec (ended _ rfl rfl), completeExec (ended _ rfl rfl), completeExec (ended _ rfl rfl),
      completeExec (ended _ rfl rfl), completeExec (ended _ rfl rfl), ended _ rfl rfl, ended _ rfl rfl,
      completeExec (ended _ rfl rfl)]

theorem stickTurn {r : SubId} (h : Moves c s t) : Moves c s (t.stickTurn r) := by
  unfold State.stickTurn
  split
  · exact h
  · exact h.completeExec

theorem attemptOver {p : PortId} {y : Port} {r : SubId} {got : Option AttemptResult} {moved : Nat} (h : Moves c s t)
    (hy : (t.port p).Becomes y) : Moves c s (t.attemptOver p y r got moved) := by
  unfold State.attemptOver State.countFailed
  split
  · exact (h.setPort hy).count.endAttempt
  · exact (h.setPort hy).endAttempt

theorem closeWindow {p : PortId} (h : Moves c s t) (hw : isWaiting (t.port p).window = false) :
    Moves c s (t.setPort p { t.port p with window := .none }) := h.setPort (Port.becomes_closeWindow hw)

theorem dropService {p : PortId} {f : FrameRec} {reason : CloseReason} (h : Moves c s t) :
    Moves c s (t.dropService p f reason) := by
  unfold State.dropService
  dsimp only
  split
  · rename_i hw
    exact (h.release.closeWindow (by rw [hw]; rfl)).completeAnswer.queryClosed
  · exact h.release

theorem deliver {p : PortId} {f : FrameRec} {v : ServiceRec} (h : Moves c s t) : Moves c s (t.deliver p f v) := by
  unfold State.deliver
  split
  · split
    · exact h.handRecord
    · dsimp only
      split_ifs
      exacts [h.countLost, h]
  · exact h.setReply.slotNote
  · split
    · rename_i hw
      exact (h.closeWindow (by rw [hw]; rfl)).completeAnswer
    · exact h
  · exact h

theorem endEarly {p : PortId} {f : FrameRec} (h : Moves c s t) : Moves c s (t.endEarly p f) := by
  unfold State.endEarly
  split
  · rename_i hw
    split_ifs
    exacts [(h.closeWindow (by rw [hw]; rfl)).completeAnswer, h.dropService]
  · exact h.dropService

/-! ### What a happening at a port brings about at its end (R35, R42, R174) -/

theorem enterOff {p : PortId} (h : Moves c s t) : Moves c s (t.enterOff p) := by
  have off : Moves c s (((t.setPort p (t.port p).goOff).setSnapshot p none).portDown p) :=
    (h.setPort Port.becomes_goOff).setSnapshot.portDown
  unfold State.enterOff
  dsimp only
  split
  · exact off.finishAdmin
  · exact off

theorem settleStop {p : PortId} {before : State} (h : Moves c s t) : Moves c s (t.settleStop p before) := by
  unfold State.settleStop
  dsimp only
  split
  · exact h.enterOff.inRingOrder
  · exact h

theorem settleHalt (h : Moves c s t) : Moves c s t.settleHalt := by
  unfold State.settleHalt
  split
  · rename_i hh
    exact h.tail (.engine (by simp [State.live, hh.1]) _ (.inr (.inr rfl)))
  · exact h

theorem settle {p : PortId} {before : State} (h : Moves c s t) : Moves c s (t.settle p before) :=
  h.settleStop.settleHalt

theorem leavesFrame {p : PortId} (h : Moves c s t) : Moves c s (t.leavesFrame p) :=
  (h.setPort Port.becomes_goOff).setSnapshot

/-- A happening at a port is a run of moves where what it does while the device works, and what it does at a port that drives
on after the engine's failure, are. -/
theorem event {p : PortId} {act leaves : Port → State} (hact : Moves c s (act (s.port p)))
    (hleaves : Moves c s (leaves (s.port p))) : Moves c s (s.event p act leaves) := by
  refine settle ?_
  unfold State.atPort
  split_ifs
  exacts [hact, hleaves, .refl]

theorem onFrame {act : Port → FrameRec → State} {x : Port} (h : ∀ f, x.frame = some f → Moves c s (act x f)) :
    Moves c s (s.onFrame act x) := by
  unfold State.onFrame
  split
  · exact h _ ‹_›
  · exact .refl

theorem inFrame {p : PortId} {act leaves : Port → FrameRec → State}
    (hact : ∀ f, (s.port p).frame = some f → Moves c s (act (s.port p) f))
    (hleaves : ∀ f, (s.port p).frame = some f → Moves c s (leaves (s.port p) f)) : Moves c s (s.inFrame p act leaves) :=
  event (onFrame hact) (onFrame hleaves)

/-- A happening within a frame that takes a port that drives on OFF. -/
theorem inFrame' {p : PortId} {act : Port → FrameRec → State}
    (hact : ∀ f, (s.port p).frame = some f → Moves c s (act (s.port p) f)) : Moves c s (s.inFrame p act) :=
  inFrame hact fun _ _ => leavesFrame .refl

/-! ### The course of a frame -/

theorem setFrame {p : PortId} {f g : FrameRec} {last : Level} {bit : Nat} (h : Moves c s t)
    (hf : (t.port p).frame = some f) (role : g.role = f.role) (header : g.rxHeader = f.rxHeader)
    (turn : g.turn = f.turn) : Moves c s (t.setFrame p g last bit) :=
  h.setPort (.of_frame hf rfl rfl rfl rfl (.inl rfl) rfl role header turn)

theorem setFrame_driveBda {p : PortId} {f g : FrameRec} {last : Level} {d : Driver} (h : Moves c s t)
    (hs : (t.port p).state = .initiating ∨ (t.port p).state = .serving)
    (hf : (t.port p).frame = some f) (role : g.role = f.role) (header : g.rxHeader = f.rxHeader)
    (turn : g.turn = f.turn) : Moves c s ((t.setFrame p g last).driveBda p d) := by
  refine (h.setFrame hf role header turn).setPort ?_
  rw [State.setFrame, State.setPort_port_self]
  exact .of_frame rfl rfl rfl rfl rfl (.inr hs) rfl rfl rfl rfl

theorem observeFrame {p : PortId} {f : FrameRec} {last : Level} {bit : Nat} (h : Moves c s t)
    (hs : (t.port p).state ≠ .holding) : Moves c s (t.observeFrame p f last bit) :=
  h.setPort <| (Port.becomes_clocked t.timeBase last bit).trans
    (Port.becomes_toObserving (x := (t.port p).clocked t.timeBase last bit) hs)

theorem byteSent {p : PortId} {f g : FrameRec} {byte : Byte} (h : Moves c s t)
    (hs : (t.port p).state = .initiating ∨ (t.port p).state = .serving)
    (hf : (t.port p).frame = some f) (role : g.role = f.role) (header : g.rxHeader = f.rxHeader)
    (turn : g.turn = f.turn) : Moves c s (t.byteSent p g byte) := h.setFrame_driveBda hs hf role header turn

end Moves

end Sys2Proof.Machine
end

section
/-!
PROOFS. Every command but a reset as a run of moves: engine control, rings and administration.
-/
namespace Sys2Proof.Machine
open Sys2Proof.Safety

/-- The meaning of a command is a run of moves in every state. -/
def Runs (c : Instr) (m : State → Answer) : Prop := ∀ s t, m s = .next t → Moves c s t

theorem Runs.of_next {c : Instr} {f : State → State} (h : ∀ s, Moves c s (f s)) : Runs c fun s => .next (f s) := by
  intro s t hs
  obtain rfl : f s = t := Host.Outcome.next.inj hs
  exact h s

variable {c : Instr}

/-! ### Engine control (chapter 10) -/

theorem execEnable_runs : Runs c execEnable := .of_next fun s => by
  split_ifs with hd
  · exact .single (.starting hd _)
  · exact .fail .refl nofun
  · exact Moves.setNotes .refl

theorem execHalt_runs : Runs c execHalt := .of_next fun s => by
  split
  · exact .settleHalt (.single (.engine (by simp [State.live, *]) _ (.inr (.inl rfl))))
  · exact Moves.setNotes .refl

theorem execResume_runs : Runs c execResume := .of_next fun s => by
  split
  · rename_i h
    exact .single (.engine (by rcases h with h | h <;> simp [State.live, h]) _ (.inl rfl))
  · exact Moves.setNotes .refl

theorem execClearNotes_runs (selection : BitVec 3) : Runs c (execClearNotes selection) :=
  .of_next fun _ => Moves.setNotes .refl

theorem execUnknownEngineCommand_runs (code : BitVec 4) : Runs c (execUnknownEngineCommand code) := .of_next fun s => by
  split
  · exact .refl
  · exact Moves.setNotes .refl

theorem execSetupAddressWrite_runs (high : Bool) (value : Word32) : Runs c (execSetupAddressWrite high value) :=
  .of_next fun _ => .single (.other ..)

theorem execSetupReadEnd_runs (read : ReadEnd) : Runs c (execSetupReadEnd read) := .of_next fun s => by
  split
  · rename_i h
    split
    · exact .fail .refl nofun
    · dsimp only
      split
      · rename_i hb
        exact .single (.setup h.1 _ hb)
      · exact .fail .refl nofun
  · exact .refl

theorem execPost_runs (word : Word32) : Runs c (execPost word) := .of_next fun s => by
  dsimp only
  split
  · rename_i h
    exact Moves.setSub .refl ⟨rfl, rfl, rfl, rfl, rfl, rfl, Iff.rfl, .inr (.inr h.2.2), .inl rfl⟩
  · exact Moves.setNotes .refl

/-- R146: the index of a taken ACK lies in the ring and does not pass the tail. -/
theorem ackTaken_index {s : State} {state : RingState} {size tail consumer i : Nat}
    (h : ackTaken s state size tail consumer i = true) : i < size ∧ passesTail size tail consumer i = false := by
  simp only [ackTaken, Bool.and_eq_true, decide_eq_true_eq, Bool.not_eq_true'] at h
  obtain ⟨⟨-, hi⟩, hp⟩ := h
  exact ⟨hi, hp⟩

theorem execAck_runs (word : Word32) : Runs c (execAck word) := .of_next fun s => by
  dsimp only
  split
  · split
    · rename_i k _ h
      obtain ⟨hi, hp⟩ := ackTaken_index h
      exact .sendIf (.single (.ackCpl k _ _ hi hp))
    · exact Moves.setNotes .refl
  · split
    · rename_i k _ h
      obtain ⟨hi, hp⟩ := ackTaken_index h
      exact .sendIf (.single (.ackRcv k _ _ hi hp))
    · exact Moves.setNotes .refl

/-! ### Submission rings (chapters 3 and 7) -/

theorem execFetchStart_runs (r : SubId) : Runs c (execFetchStart r) := .of_next fun s => by
  split
  · split
    · exact .single (.fetchStart r _ ‹_› ‹_›)
    · exact .refl
  · exact .refl

variable {s : State}

theorem Moves.handOver_plain {t : State} {r : SubId} {tag : BitVec 16} {status : Status} {absent : Bool}
    (h : Moves c s t) : Moves c s (t.handOver r { tag, status, tagAbsent := absent }) := h.handOver (.inl ⟨rfl, rfl⟩)

theorem Moves.stage {t : State} {r : SubId} {d : Desc} {payload : List Byte} (h : Moves c s t)
    (ho : (t.sub r).occupancy = .fetching) : Moves c s (t.stage r d payload) := by
  have staged : ∀ exec, (∀ e ∈ exec, e = ExecRec.fresh d) →
      Moves c s (t.setSub r
        { t.sub r with
          occupancy := .staged, reading := none, abortPending := false,
          staged := some (.xfer { desc := d, payload, time := t.timeBase, exec }) }) := fun exec he =>
    h.tail <| .stage r _ (t.sub r).fetch false ho (.inl rfl) <| by
      rintro x hx e hxe
      cases hx
      rw [he e hxe]
      exact ⟨rfl, rfl⟩
  unfold State.stage
  dsimp only
  split
  · exact h.handOver_plain
  · split
    · exact staged _ nofun
    · exact (staged _ fun e he => (Option.some.inj he).symm).consider

theorem Moves.takeDescriptor {t : State} {r : SubId} {bytes : List Byte} (h : Moves c s t)
    (ho : (t.sub r).occupancy = .fetching) : Moves c s (t.takeDescriptor r bytes) := by
  unfold State.takeDescriptor
  split
  · exact h.handOver_plain
  · split_ifs
    exacts [h.handOver_plain, h.handOver_plain, h.handOver_plain,
      h.setSub ⟨rfl, rfl, rfl, rfl, rfl, rfl, Iff.rfl, .inl rfl, .inl rfl⟩, h.stage ho]

theorem execSlotReadEnd_runs (r : SubId) (read : ReadEnd) : Runs c (execSlotReadEnd r read) := .of_next fun s => by
  dsimp only
  split
  · rename_i h
    obtain ⟨-, ho, -⟩ := h
    split
    · split
      · exact .fail .refl nofun
      · refine Moves.handOver_plain (Moves.setSub .refl ⟨rfl, rfl, rfl, rfl, rfl, rfl, ?_, .inl rfl, .inl rfl⟩)
        dsimp only
        split <;> simp [*]
    · split
      · rename_i hr
        subst hr
        exact Moves.setAdmin (.single (.stage 0 (.admin _ _) _ _ ho (.inr rfl) nofun))
      · refine Moves.takeDescriptor (Moves.setSub .refl ⟨rfl, rfl, rfl, rfl, rfl, rfl, Iff.rfl, .inl rfl, .inr rfl⟩) ?_
        simpa using ho
  · exact .refl

theorem execPayloadReadEnd_runs (r : SubId) (read : ReadEnd) : Runs c (execPayloadReadEnd r read) :=
    .of_next fun s => by
  split
  · rename_i h
    split
    · split
      · exact Moves.handOver_plain .refl
      · split
        · exact Moves.handOver_plain .refl
        · exact Moves.stage .refl h.2
    · exact .refl
  · exact .refl

theorem execDeadlineExpiry_runs (r : SubId) : Runs c (execDeadlineExpiry r) := .of_next fun s => by
  split
  · rename_i he
    split
    · dsimp only
      split
      · exact (Moves.setTime .refl).completeExec
      · exact (Moves.setTime .refl).completeExec
      · exact (Moves.setTime .refl).setExec_same he rfl rfl
      · exact .refl
    · exact .refl
  · exact .refl

theorem execReplyStoreEnd_runs (r : SubId) (write : WriteEnd) : Runs c (execReplyStoreEnd r write) :=
    .of_next fun s => by
  split
  · split
    · split
      · exact Moves.completeExec .refl
      · exact Moves.completeExec .refl
    · exact .refl
  · exact .refl

theorem execUnknownCommand_runs : Runs c execUnknownCommand := .of_next fun s => by
  split
  · exact Moves.finishAdmin .refl
  · exact .refl

theorem execCreateSubmissionRing_runs : Runs c execCreateSubmissionRing := .of_next fun s => by
  have bad : ∀ status, Moves c s (s.finishAdmin status) := fun _ => Moves.finishAdmin .refl
  split
  · split
    · exact bad _
    · split_ifs with hr ha hl
      · exact bad _
      · exact bad _
      · exact bad _
      · split
        · split
          · refine Moves.finishAdmin (.single (.createSub _ _ _ _ _ _ (not_not.1 ha) ?_))
            simpa using hl
          · exact bad _
        · exact bad _
  · exact .refl

theorem Moves.refuseInSlot {t : State} {r : SubId} {b : Bool} (h : Moves c s t) : Moves c s (t.refuseInSlot r b) := by
  unfold State.refuseInSlot
  split
  · split
    · rename_i hf
      split
      · split
        · exact h.setPort (.of_frame hf rfl rfl rfl rfl (.inl rfl) rfl rfl rfl rfl)
        · exact h
      · exact h
    · exact h
  · exact h

theorem Moves.pendAbort {t : State} {r : SubId} (h : Moves c s t) :
    Moves c s (t.setSub r { t.sub r with abortPending := true }) :=
  h.setSub ⟨rfl, rfl, rfl, rfl, rfl, rfl, Iff.rfl, .inl rfl, .inl rfl⟩

theorem Moves.abortStaged {t : State} {r : SubId} {b : Bool} (h : Moves c s t) : Moves c s (t.abortStaged r b) := by
  unfold State.abortStaged
  split
  · exact h
  · split
    · split
      · exact h.pendAbort
      · exact h.completeAnswer
    · split
      · exact h.completeExec
      · exact h.completeExec
      · exact h.pendAbort.refuseInSlot
      · exact h

theorem execDeleteSubmissionRing_runs (b : Bool) : Runs c (execDeleteSubmissionRing b) := .of_next fun s => by
  have ends : ∀ status, Moves c s (s.finishAdmin status) := fun _ => Moves.finishAdmin .refl
  split
  · split
    · exact ends _
    · rename_i r _
      dsimp only
      split
      · exact ends _
      · split
        · exact ends _
        · split
          · exact Moves.finishAdmin (.single (.dropSub _ ‹_›))
          · exact Moves.setAdmin .refl
        · exact Moves.setAdmin .refl
        · rename_i hactive
          split
          · exact Moves.finishAdmin (.single (.dropSub _ ‹_›))
          · have drains : (s.sub r).Adjusts { s.sub r with state := .draining, producer := (s.sub r).fetch } :=
              ⟨rfl, rfl, rfl, rfl, rfl, rfl, by simp [hactive], .inr (.inl rfl), .inl rfl⟩
            exact (Moves.setSub (t := { s with admin := .deletingSub r }) (Moves.setAdmin .refl) drains).abortStaged
  · exact .refl

theorem execAbort_runs (b : Bool) : Runs c (execAbort b) := .of_next fun s => by
  have ends : ∀ status, Moves c s (s.finishAdmin status) := fun _ => Moves.finishAdmin .refl
  split
  · split
    · exact ends _
    · split_ifs
      · exact ends _
      · exact ends _
      · split
        · split
          · exact (Moves.setAdmin .refl).abortStaged
          · exact ends _
        · exact ends _
  · exact .refl

/-! ### Completion rings, vectors and receive rings (chapters 8 and 9) -/

theorem execCompletionWriteStart_runs (k : CplId) : Runs c (execCompletionWriteStart k) := .of_next fun s => by
  split
  · split
    · exact .single (.writingCpl k _)
    · exact .refl
  · exact .refl

/-- R134, R138, R139: a record that has been written, with the ring that it releases. -/
theorem Moves.recordWritten {k : CplId} {e : CplEntry} {rest : List CplEntry} (h : (s.cpl k).queue = e :: rest)
    (now : Time) :
    Moves c s
      ((s.setCpl k
        { s.cpl k with
          queue := rest, writing := none, reserved := (s.cpl k).reserved - 1,
          tail := nextSlot (s.cpl k).size (s.cpl k).tail, phase := nextPhase (s.cpl k).size (s.cpl k).tail (s.cpl k).phase,
          irq := ((s.cpl k).irq.posted now).1 }).recordWritten e.ring) := by
  unfold State.recordWritten
  dsimp only
  split_ifs
  · exact Moves.finishAdmin (.single (.written k e rest now _ h (.inl rfl)))
  · exact .single (.written k e rest now _ h (.inl rfl))
  · exact .single (.written k e rest now _ h (.inr rfl))

theorem execCompletionWriteEnd_runs (k : CplId) (write : WriteEnd) : Runs c (execCompletionWriteEnd k write) :=
    .of_next fun s => by
  dsimp only
  split
  · rename_i hq _
    split
    · split
      · exact .fail .refl nofun
      · exact (Moves.recordWritten hq s.timeBase).sendIf.settleHalt
    · exact .refl
  · exact .refl

theorem Moves.fireCpl {k : CplId} {now : Time} {t : State} (h : Moves c s t) :
    Moves c s (({ t with timeBase := now } : State).setCpl k { t.cpl k with irq := (t.cpl k).irq.fire }) :=
  (Moves.setTime (now := now) h).tail (Move.fireCpl (s := { t with timeBase := now }) k)

theorem Moves.fireRcv {r : RcvId} {now : Time} {t : State} (h : Moves c s t) :
    Moves c s (({ t with timeBase := now } : State).setRcv r { t.rcv r with irq := (t.rcv r).irq.fire }) :=
  (Moves.setTime (now := now) h).tail (Move.fireRcv (s := { t with timeBase := now }) r)

theorem execCoalescingTimer_runs (ring : RingRef) : Runs c (execCoalescingTimer ring) := .of_next fun s => by
  split
  · dsimp only
    split
    · split
      · exact (Moves.fireCpl .refl).sendMessage
      · exact .refl
    · exact .refl
  · dsimp only
    split
    · split
      · exact (Moves.fireRcv .refl).sendMessage
      · exact .refl
    · exact .refl

theorem execMessageWriteEnd_runs (v : VecId) (write : WriteEnd) : Runs c (execMessageWriteEnd v write) :=
    .of_next fun s => by
  split
  · split
    · exact Moves.setMessages .refl
    · exact (Moves.setMessages .refl).fail nofun
  · exact .refl

theorem execSetVector_runs : Runs .setVector execSetVector := .of_next fun s => by
  have bad : Moves .setVector s (s.finishAdmin .badParameter) := Moves.finishAdmin .refl
  split
  · split
    · exact bad
    · split
      · exact bad
      · exact (Moves.sendIf (.single (.vector rfl _ _))).finishAdmin
  · exact .refl

theorem execCreateCompletionRing_runs : Runs c execCreateCompletionRing := .of_next fun s => by
  have bad : ∀ status, Moves c s (s.finishAdmin status) := fun _ => Moves.finishAdmin .refl
  split
  · split
    · exact bad _
    · split_ifs with hr ha hl ht
      · exact bad _
      · exact bad _
      · exact bad _
      · split
        · exact Moves.finishAdmin (.single (.createCpl _ _ _ _ _ _ (not_not.1 ha) (by simpa using hl) ht))
        · exact bad _
      · split <;> exact bad _
  · exact .refl

theorem execDeleteCompletionRing_runs : Runs c execDeleteCompletionRing := .of_next fun s => by
  have bad : ∀ status, Moves c s (s.finishAdmin status) := fun _ => Moves.finishAdmin .refl
  split
  · split
    · exact bad _
    · split_ifs with hr ha hn
      · exact bad _
      · exact bad _
      · exact bad _
      · exact Moves.finishAdmin (.single (.dropCpl _ (by simpa using hn)))
  · exact .refl

theorem execReceiveWriteStart_runs (r : RcvId) : Runs c (execReceiveWriteStart r) := .of_next fun s => by
  split
  · split
    · exact .single (.writingRcv r _)
    · exact .refl
  · exact .refl

/-- The service record of a port's frame changes, and nothing that its shape speaks of. -/
theorem Port.becomes_setService (x : Port) (v : ServiceRec) : x.Becomes (x.setService v) := by
  cases hf : x.frame with
  | none => exact .of_same rfl rfl rfl rfl (by simp [Port.setService, hf]) rfl
  | some f =>
    exact .of_frame hf (g := { f with service := some v }) (by simp [Port.setService, hf]) rfl rfl rfl (.inl rfl) rfl rfl
      rfl rfl

theorem Port.becomes_cancelReservation (r : RcvId) (x : Port) : x.Becomes (x.cancelReservation r) := by
  unfold Port.cancelReservation
  split
  · split
    · exact x.becomes_setService _
    · exact .refl
  · exact .refl

theorem Port.becomes_forgetDiscard (r : RcvId) (x : Port) : x.Becomes (x.forgetDiscard r) := by
  unfold Port.forgetDiscard
  split
  · split
    · exact x.becomes_setService _
    · exact .refl
  · exact .refl

theorem Moves.dropRcv {t : State} {r : RcvId} (h : Moves c s t) : Moves c s (t.dropRcv r) :=
  (h.tail (.resetRcv r)).tail (.ports _ (Port.becomes_forgetDiscard r))

theorem execReceiveWriteEnd_runs (r : RcvId) (write : WriteEnd) : Runs c (execReceiveWriteEnd r write) :=
    .of_next fun s => by
  dsimp only
  split
  · rename_i hq _
    split
    · split
      · exact .fail .refl nofun
      · have written := Moves.sendIf (b := ((s.rcv r).irq.posted s.timeBase).2) (v := (s.rcv r).irq.vector)
          (.single (Move.writtenRcv (c := c) r _ _ s.timeBase hq))
        split
        · split
          · exact written.dropRcv.finishAdmin
          · exact written.dropRcv
        · exact written
    · exact .refl
  · exact .refl

theorem execCreateReceiveRing_runs : Runs c execCreateReceiveRing := .of_next fun s => by
  have bad : ∀ status, Moves c s (s.finishAdmin status) := fun _ => Moves.finishAdmin .refl
  split
  · split
    · exact bad _
    · split_ifs with ha hl ht
      · exact bad _
      · exact bad _
      · split
        · exact Moves.finishAdmin (.single (.createRcv _ _ _ _ _ _ _ (by simpa using hl) ht))
        · exact bad _
      · split <;> exact bad _
  · exact .refl

theorem execDeleteReceiveRing_runs : Runs c execDeleteReceiveRing := .of_next fun s => by
  have bad : ∀ status, Moves c s (s.finishAdmin status) := fun _ => Moves.finishAdmin .refl
  split
  · split
    · exact bad _
    · rename_i r _
      have closed : Moves c s (({ s with ports := s.ports.map (Port.cancelReservation r) } : State).setRcv r
          { s.rcv r with held := 0, closing := true }) :=
        .tail (.single (.ports _ (Port.becomes_cancelReservation r)))
          (Move.closeRcv (s := { s with ports := s.ports.map (Port.cancelReservation r) }) r)
      split_ifs
      · exact bad _
      · exact bad _
      · exact bad _
      · exact closed.dropRcv.finishAdmin
      · exact closed.setAdmin
  · exact .refl

/-! ### Match table, reply store and health table (chapters 4 to 6) -/

theorem execSetMatch_runs : Runs .setMatch execSetMatch := .of_next fun s => by
  have bad : Moves .setMatch s (s.finishAdmin .badParameter) := Moves.finishAdmin .refl
  have set : ∀ i e, Moves .setMatch s ((s.setEntry i e).finishAdmin .success) := fun i e =>
    Moves.finishAdmin (.single (.entry (.inl rfl) i e))
  split
  · split
    · split_ifs
      exacts [bad, bad, set _ _, set _ _, bad]
    · exact bad
  · exact .refl

theorem execClearMatch_runs : Runs .clearMatch execClearMatch := .of_next fun s => by
  split
  · split
    · exact Moves.finishAdmin (.single (.entry (.inr rfl) _ _))
    · exact Moves.finishAdmin .refl
  · exact .refl

theorem execSetReply_runs : Runs c execSetReply := .of_next fun s => by
  split
  · split
    · exact Moves.finishAdmin .refl
    · split_ifs
      exacts [Moves.finishAdmin .refl, (Moves.setReply .refl).finishAdmin, Moves.setAdmin .refl]
  · exact .refl

theorem execSetReplyReadEnd_runs (read : ReadEnd) : Runs c (execSetReplyReadEnd read) := .of_next fun s => by
  split
  · split
    · split
      · exact Moves.finishAdmin .refl
      · exact (Moves.setReply .refl).finishAdmin
    · exact .refl
  · exact .refl

theorem execClearReply_runs : Runs c execClearReply := .of_next fun s => by
  split
  · split
    · exact (Moves.setReply .refl).finishAdmin
    · exact Moves.finishAdmin .refl
  · exact .refl

theorem execClearHealth_runs : Runs c execClearHealth := .of_next fun s => by
  have bad : ∀ status, Moves c s (s.finishAdmin status) := fun _ => Moves.finishAdmin .refl
  split
  · split
    · exact bad _
    · dsimp only
      split_ifs
      exacts [bad _, Moves.finishAdmin (.single (.forget _)), bad _, Moves.finishAdmin (.single (.forget _)), bad _]
  · exact .refl

theorem execReadHealth_runs : Runs c execReadHealth := .of_next fun s => by
  split
  · split_ifs
    exacts [Moves.finishAdmin .refl, Moves.finishAdmin .refl, Moves.setAdmin .refl]
  · exact .refl

theorem execHealthWriteEnd_runs (write : WriteEnd) : Runs c (execHealthWriteEnd write) := .of_next fun s => by
  split
  · split
    · split <;> exact Moves.finishAdmin .refl
    · exact .refl
  · exact .refl

end Sys2Proof.Machine
end

section
/-!
PROOFS. Every command but a reset as a run of moves: ports, frames and answer windows.
-/
namespace Sys2Proof.Machine
open Sys2Proof.Safety

variable {c : Instr} {s t : State}

/-! ### Administration of ports (chapter 2) -/

theorem execSetPort_runs : Runs .setPort execSetPort := .of_next fun s => by
  split
  · split
    · exact Moves.finishAdmin .refl
    · split
      · exact Moves.finishAdmin .refl
      · split
        · exact Moves.finishAdmin (.single (.config rfl _ _))
        · exact Moves.finishAdmin .refl
  · exact .refl

theorem Moves.portControl {k : Nat} {act : PortId → State} (h : ∀ p, Moves c s (act p)) :
    Moves c s (s.portControl k act) := by
  unfold State.portControl
  split
  · split
    · exact Moves.finishAdmin .refl
    · split_ifs
      exacts [Moves.finishAdmin .refl, h _, .refl]
  · exact .refl

theorem execPortControlStart_runs (bck bda : Level) : Runs c fun s => execPortControlStart s bck bda :=
    .of_next fun s => Moves.portControl fun p => by
  split
  · rename_i hs
    refine Moves.finishAdmin (Moves.setPort .refl ⟨rfl, fun h => ?_⟩)
    exact portShape_of_no_frame (.inr (.inl rfl)) rfl ⟨rfl, rfl⟩
      (not_waiting_of_portShape (x := s.port p) h (by simp [hs]))
  · exact Moves.finishAdmin .refl

/-- R31, R110: a hold ends with the window no longer WAITING. -/
theorem Port.becomes_endHold {x y : Port} {w : Window} {now : Time} {bck : Level} (hx : isWaiting x.window = true)
    (hy : y = x ∨ ∃ v, y = x.setService v) (hw : isWaiting w = false) :
    x.Becomes { y.endHold now bck with window := w } := by
  refine ⟨?config, fun h => ?shape⟩
  case config => rcases hy with rfl | ⟨v, rfl⟩ <;> rfl
  case shape =>
    obtain ⟨f, hf⟩ := frame_of_holding h (h.2.1 hx)
    have hrole : f.role = .target := role_of_holding h (h.2.1 hx) hf
    rcases hy with rfl | ⟨v, rfl⟩
    · exact portShape_of_serving rfl hf (.inl hrole) hw
    · exact portShape_of_serving (f := { f with service := some v }) rfl (by simp [Port.setService, hf]) (.inl hrole) hw

/-- R116, R120: the query that a holding port holds is closed without an ANSWER. -/
theorem Moves.closeQuery {p : PortId} {q : QueryDetails} {expiry : ExpiryAnswer} {reason : CloseReason} {bck : Level}
    (h : Moves c s t) (hw : isWaiting (t.port p).window = true) :
    Moves c s (t.closeQuery p q expiry reason bck) := by
  refine Moves.queryClosed (h.setPort (Port.becomes_endHold hw ?_ rfl))
  split
  · exact .inr ⟨_, rfl⟩
  · exact .inl rfl

theorem execPortControlStop_runs (bck : Level) : Runs c fun s => execPortControlStop s bck :=
    .of_next fun s => Moves.portControl fun p => by
  have wait : Moves c s (({ s with admin := .stopping p } : State).setPort p { s.port p with stopPending := true }) :=
    Moves.setPort (t := { s with admin := .stopping p }) (Moves.setAdmin .refl) (.of_same rfl rfl rfl rfl rfl rfl)
  have off : Moves c s (({ s with admin := .stopping p } : State).enterOff p) := (Moves.setAdmin .refl).enterOff
  dsimp only
  split
  · exact Moves.finishAdmin .refl
  · exact off
  · exact off
  · exact off
  · exact off
  · exact wait
  · exact wait
  · exact wait
  · split
    · rename_i hw
      exact wait.closeQuery (by rw [State.setPort_port_self]; simp [hw, isWaiting])
    · exact wait

theorem execPortControlRecover_runs : Runs c execPortControlRecover :=
    .of_next fun s => Moves.portControl fun p => by
  split
  · rename_i hs
    exact (Moves.setPort .refl (Port.becomes_toRecovering (by simp [hs]) s.timeBase)).count.setAdmin
  · exact Moves.finishAdmin .refl

theorem execReadPortStats_runs : Runs c execReadPortStats := .of_next fun s => by
  split
  · split
    · exact Moves.finishAdmin .refl
    · dsimp only
      split
      · exact Moves.finishAdmin .refl
      · exact Moves.setAdmin .refl
  · exact .refl

theorem execStatsWriteEnd_runs (write : WriteEnd) : Runs c (execStatsWriteEnd write) := .of_next fun s => by
  split
  · split
    · split
      · exact Moves.finishAdmin .refl
      · exact Moves.finishAdmin (Moves.setPort .refl (.of_same rfl rfl rfl rfl rfl rfl))
    · exact .refl
  · exact .refl

/-! ### The scheduler and the header (chapters 1 and 3) -/

/-- R23, R26, R51: a port takes part in an arbitration, as an initiator with a turn or, after a loss, as a receiver. -/
theorem Port.becomes_arbitrating {x y : Port} {f : FrameRec} (hs : x.state ≠ .holding) (hy : y.state = .arbitrating)
    (hf : y.frame = some f)
    (part : (f.role = .initiator ∧ f.turn ≠ none) ∨ (f.role = .observer ∧ f.turn = none ∧ driversReleased y))
    (config : y.config = x.config) (window : y.window = x.window) : x.Becomes y := by
  refine ⟨config, fun h => ?_⟩
  have hw := not_waiting_of_portShape h hs
  simpa [PortShape, hy, hf, window, hw] using part

/-- R51: a port's own opening. -/
theorem Moves.openFrame {p q : PortId} {r : SubId} {d : Desc} (h : Moves (.schedulerChoice q true) s t)
    (hs : (t.port p).state ≠ .holding) : Moves (.schedulerChoice q true) s (t.openFrame p r d) := by
  have moved : Moves (.schedulerChoice q true) s ((t.setPosition p (t.priorityOf r) r.val).count p .framesStarted) :=
    Moves.count (h.tail (.position ⟨q, rfl⟩ p _ _))
  refine moved.setPort (Port.becomes_arbitrating ?_ rfl rfl (.inl ⟨rfl, nofun⟩) rfl rfl)
  rw [State.count_port_self]
  exact hs

/-- R49: a port is given a descriptor. -/
theorem Moves.beginTurn {p : PortId} {r : SubId} {y : StagedXfer} {e : ExecRec} (h : Moves c s t)
    (he : t.execOf r = some (y, e)) (hs : (t.port p).state = .idle) : Moves c s (t.beginTurn p r y e) := by
  refine (h.setExec_same (e' := { e with state := .inAttempt }) he rfl rfl).setPort
    (Port.becomes_arbitrating ?_ rfl rfl (.inl ⟨rfl, nofun⟩) rfl rfl)
  rw [State.setExec, State.setSub_port, hs]
  nofun

theorem State.beginTurn_port_state (s : State) (p : PortId) (r : SubId) (y : StagedXfer) (e : ExecRec) :
    ((s.beginTurn p r y e).port p).state = .arbitrating := by
  simp [State.beginTurn]

theorem execSchedulerChoice_runs (p : PortId) (opens : Bool) :
    Runs (.schedulerChoice p opens) fun s => execSchedulerChoice p s opens := .of_next fun s => by
  dsimp only
  split
  · rename_i hx
    obtain ⟨-, hs, -⟩ := hx
    split
    · split
      · rename_i he
        have begun := Moves.beginTurn (c := .schedulerChoice p opens) .refl he hs
        cases opens
        · exact begun
        · exact begun.openFrame (by simp [State.beginTurn_port_state])
      · exact .refl
    · exact .refl
  · split
    · rename_i hx
      obtain ⟨-, hs, -, rfl⟩ := hx
      split
      · split
        · exact .openFrame .refl (by simp [hs])
        · exact .refl
      · exact .refl
    · exact .refl

theorem Moves.recovered {p : PortId} {y : Port} (h : Moves c s t) (hy : (t.port p).Becomes y) :
    Moves c s (t.recovered p y) := by
  unfold State.recovered State.endRecover
  split
  · exact (h.setPort hy).finishAdmin.recheckHeld
  · exact (h.setPort hy).recheckHeld

theorem execOpening_runs (p : PortId) : Runs c (execOpening p) := .of_next fun s => by
  refine Moves.event ?_ .refl
  split
  · exact Moves.setPort .refl (Port.becomes_seeOpening (by simp [*]) _)
  · split
    · split
      · exact (Moves.setPort .refl (Port.becomes_seeOpening (by simp [*]) _)).returnTurn
      · exact .refl
    · exact .refl
  · split
    · exact Moves.recovered .refl (Port.becomes_seeOpening (by simp [*]) _)
    · exact .refl
  · exact .refl

/-- R10: a turn can be lost only in ARBITRATING. -/
theorem Port.state_of_lostTurn {x : Port} {f : FrameRec} {bit : Fin 24} {r : SubId} (h : x.lostTurn f bit = some r) :
    x.state = .arbitrating := by
  unfold Port.lostTurn at h
  split at h
  · assumption
  · cases h

theorem execArbitrationLoss_runs (p : PortId) (bit : Fin 24) : Runs c (execArbitrationLoss p bit) :=
    .of_next fun s => by
  refine Moves.inFrame (fun f hf => ?_) fun f hf => ?_
  · split
    · rename_i r hr
      refine Moves.loseTurn ?_
      dsimp only [State.setFrame]
      rw [State.setPort_port_self, State.setPort_setPort]
      have hs : ((s.count p .arbitrationLost).port p).state = .arbitrating := by
        rw [State.count_port_self]
        exact Port.state_of_lostTurn hr
      exact (Moves.count .refl).setPort
        (Port.becomes_arbitrating (by rw [hs]; nofun) hs rfl (.inr ⟨rfl, rfl, rfl, rfl⟩) rfl rfl)
    · exact .refl
  · split
    · exact .leavesFrame .refl
    · exact .refl

/-- R9: only a NOTICE is broadcast. -/
theorem frameKind_of_broadcast {h : Header} {st : Station} (hj : judge h st = .broadcast) :
    Header.frameKind h = .notice := by
  unfold judge at hj
  dsimp only at hj
  split_ifs at hj
  rename_i hk
  simpa using (Bool.and_eq_true_iff.1 hk).1

theorem Moves.receiverJudges {p : PortId} {f : FrameRec} {h : Header}
    (hs : (s.port p).state ≠ .holding) : Moves c s (s.receiverJudges p (s.port p) f h) := by
  have observe : Moves c s (s.observeFrame p { f with rxHeader := h, position := .channelByte }
      (levelOfBit (Header.check2 h))) := .observeFrame .refl hs
  have serve : ∀ (role : Role) (l : List Candidate),
      role = .target ∨ (role = .listener ∧ Header.frameKind h = .notice) →
      Moves c s ((s.setPort p { s.port p with state := .serving }).setFrame p
        { f with rxHeader := h, position := .channelByte, role := role, service := some (.fresh l) }
        (levelOfBit (Header.check2 h))) := by
    intro role l hr
    rw [State.setFrame, State.setPort_port_self, State.setPort_setPort]
    exact Moves.setPort .refl
      ⟨rfl, fun hx => portShape_of_serving rfl rfl hr (not_waiting_of_portShape (x := s.port p) hx hs)⟩
  unfold State.receiverJudges
  dsimp only
  split
  · exact observe
  · split
    · exact serve _ _ (.inl rfl)
    · rename_i hj
      split
      · exact observe
      · exact serve _ _ (.inr ⟨rfl, frameKind_of_broadcast hj⟩)
    · exact observe
    · exact observe

/-- R26: an initiator that has not lost goes on to INITIATING. -/
theorem Port.becomes_initiating {x y : Port} {f g : FrameRec} {r : SubId} (hs : x.state = .arbitrating)
    (hf : x.frame = some f) (ht : f.turn = some r) (hy : y.state = .initiating) (hg : y.frame = some g)
    (role : g.role = f.role) (turn : g.turn = f.turn) (config : y.config = x.config) (window : y.window = x.window) :
    x.Becomes y := by
  refine ⟨config, fun h => ?_⟩
  have hw := not_waiting_of_portShape h (by simp [hs])
  simp only [PortShape, hs, hf, ht] at h
  simp [PortShape, hy, hg, role, turn, ht, window, hw]
  simpa using h.1

theorem execHeaderJudgement_runs (p : PortId) (wire : Header) : Runs c (execHeaderJudgement p wire) :=
    .of_next fun s => by
  refine Moves.inFrame' fun f hf => ?_
  split
  · split
    · rename_i hs ht
      have judged : Moves c s
          ((s.setPort p
            { s.port p with state := .initiating, bdaDriver := driverOfBit (Header.check2 f.rxHeader) }).setFrame p
            { f with position := .channelByte } (levelOfBit (Header.check2 f.rxHeader))) := by
        rw [State.setFrame, State.setPort_port_self, State.setPort_setPort]
        exact Moves.setPort .refl (Port.becomes_initiating hs hf ht rfl rfl rfl rfl rfl rfl)
      dsimp only
      split
      · rename_i he
        exact judged.setExec_same he rfl rfl
      · exact judged
    · exact .receiverJudges (by simp [*])
    · exact .receiverJudges (by simp [*])
    · exact .refl
  · exact .refl

end Sys2Proof.Machine
end

section
/-!
PROOFS. Every command but a reset as a run of moves: the bytes and slots of a frame, its ends, recovery and the answer
windows; and all commands together.
-/
namespace Sys2Proof.Machine
open Sys2Proof.Safety

variable {c : Instr} {s t : State}

/-! ### What leaves the ports, or the state of each, as it was -/

theorem State.complete_ports (s : State) (r : SubId) (d : Done) : (s.complete r d).ports = s.ports := by
  obtain ⟨_, _, _, h⟩ := s.complete_frame r d
  rw [h]

theorem State.completeAnswer_ports (s : State) (r : SubId) (status : Status) (n : Nat) :
    (s.completeAnswer r status n).ports = s.ports := by
  unfold State.completeAnswer
  split
  · exact s.complete_ports r _
  · rfl

theorem State.claimAtPosting_ports (s : State) (r : RcvId) (e : RcvEntry) : (s.claimAtPosting r e).ports = s.ports := by
  obtain ⟨_, h⟩ := s.claimAtPosting_frame r e
  rw [h]

theorem State.queryClosed_ports (s : State) (p : PortId) (q : QueryDetails) (reason : CloseReason) :
    (s.queryClosed p q reason).ports = s.ports := s.claimAtPosting_ports ..

theorem State.slotNote_ports (s : State) (p : PortId) (kind : RecordKind) (h : Candidate) (f : FrameRec) (n : Nat) :
    (s.slotNote p kind h f n).ports = s.ports := by
  unfold State.slotNote
  split
  · rfl
  · exact s.claimAtPosting_ports ..

theorem State.handRecord_ports (s : State) (r : RcvId) (e : RcvEntry) : (s.handRecord r e).ports = s.ports := by
  unfold State.handRecord
  dsimp only
  split <;> rfl

theorem State.port_of_ports (h : t.ports = s.ports) (p : PortId) : t.port p = s.port p := by
  simp only [State.port, h]

theorem State.dropService_port_state (s : State) (p : PortId) (f : FrameRec) (reason : CloseReason) :
    ((s.dropService p f reason).port p).state = (s.port p).state := by
  unfold State.dropService
  dsimp only
  split
  · rw [State.port_of_ports (State.queryClosed_ports ..), State.port_of_ports (State.completeAnswer_ports ..),
      State.setPort_port_self, State.release_port]
  · rw [State.release_port]

theorem State.endEarly_port_state (s : State) (p : PortId) (f : FrameRec) :
    ((s.endEarly p f).port p).state = (s.port p).state := by
  unfold State.endEarly
  split
  · split
    · rw [State.port_of_ports (State.completeAnswer_ports ..), State.setPort_port_self]
    · exact s.dropService_port_state ..
  · exact s.dropService_port_state ..

theorem State.deliver_port_state (s : State) (p : PortId) (f : FrameRec) (v : ServiceRec) :
    ((s.deliver p f v).port p).state = (s.port p).state := by
  unfold State.deliver
  split
  · split
    · rw [State.port_of_ports (State.handRecord_ports ..)]
    · dsimp only
      split <;> rfl
  · rw [State.port_of_ports (State.slotNote_ports ..)]
    rfl
  · split
    · rw [State.port_of_ports (State.completeAnswer_ports ..), State.setPort_port_self]
    · rfl
  · rfl

theorem State.count_port_state (s : State) (p q : PortId) (n : Counter) :
    ((s.count p n).port q).state = (s.port q).state := by
  by_cases h : q = p
  · subst h
    rw [State.count_port_self]
  · rw [State.count_port_ne _ _ _ _ h]

theorem State.tellHealth_port_state (s : State) (p q : PortId) (d : Desc) (status : Status) :
    ((s.tellHealth p d status).port q).state = (s.port q).state := by
  have failure : ((s.targetFailure p d.dest).port q).state = (s.port q).state := by
    unfold State.targetFailure
    dsimp only
    split
    · rfl
    · split_ifs
      exacts [rfl, rfl, s.count_port_state p q _]
  have success : ((s.targetSuccess p d.dest).port q).state = (s.port q).state := by
    obtain ⟨_, h⟩ := s.targetSuccess_frame p d.dest
    rw [h]
    rfl
  unfold State.tellHealth
  split
  · split
    exacts [failure, failure, failure, failure, success, success, rfl]
  · rfl

theorem State.completeExec_port_state (s : State) (r : SubId) (status : Status) (n : Nat) (q : PortId) :
    ((s.completeExec r status n).port q).state = (s.port q).state := by
  unfold State.completeExec
  split
  · rw [State.port_of_ports (State.complete_ports ..), State.tellHealth_port_state]
  · rfl

theorem State.endAttempt_port_state (s : State) (r : SubId) (got : Option AttemptResult) (moved : Nat) (q : PortId) :
    ((s.endAttempt r got moved).port q).state = (s.port q).state := by
  have set : ∀ x e status n, (((s.setExec r x e).completeExec r status n).port q).state = (s.port q).state := by
    intro x e status n
    rw [State.completeExec_port_state]
    rfl
  unfold State.endAttempt
  split
  · rfl
  · dsimp only
    split_ifs
    exacts [set .., set .., set .., set .., set .., rfl, rfl, set ..]

theorem State.handOverStuck_port_state (s : State) (p : PortId) (x : Port) :
    ((s.handOverStuck p x).port p).state = (s.port p).state := by
  unfold State.handOverStuck
  split
  · split
    · unfold State.stickTurn
      split
      · rfl
      · exact s.completeExec_port_state ..
    · exact s.endAttempt_port_state ..
    · exact s.dropService_port_state ..
    · rfl
  · rfl

/-! ### Bytes and verdicts (chapters 1, 2 and 5) -/

theorem execChannelByte_runs (p : PortId) (byte : Byte) : Runs c (execChannelByte p byte) := .of_next fun s => by
  refine Moves.inFrame' fun f hf => ?_
  dsimp only
  split
  · rename_i hs _
    split
    · exact .observeFrame .refl (by simp [hs])
    · exact .setFrame .refl hf rfl rfl rfl
  · exact .setFrame .refl hf rfl rfl rfl
  · rename_i hs
    split
    · exact .byteSent .refl (.inl hs) hf rfl rfl rfl
    · exact .refl
  · exact .refl

section
variable {p : PortId} {f g : FrameRec} {v : ServiceRec}

theorem Moves.giveVerdict {verdict : HeaderVerdict} (h : Moves c s t) (hf : (t.port p).frame = some f)
    (role : g.role = f.role) (header : g.rxHeader = f.rxHeader) (turn : g.turn = f.turn) :
    Moves c s (t.giveVerdict p g v verdict) := by
  unfold State.giveVerdict
  dsimp only
  split
  · exact count (h.setFrame hf role header turn)
  · exact h.setFrame hf role header turn

variable (hf : (s.port p).frame = some f) (role : g.role = f.role) (header : g.rxHeader = f.rxHeader)
  (turn : g.turn = f.turn)
include hf role header turn

theorem Moves.deliverVerdict {hit : Candidate} : Moves c s (s.deliverVerdict p g v hit) := by
  unfold State.deliverVerdict
  dsimp only
  split
  · exact (Moves.reserve .refl ‹_›).giveVerdict hf role header turn
  · split <;> exact .giveVerdict .refl hf role header turn
  · exact .giveVerdict .refl hf role header turn

theorem Moves.replySlotVerdict {hit : Candidate} : Moves c s (s.replySlotVerdict p g v hit) := by
  unfold State.replySlotVerdict
  dsimp only
  split
  · split
    · refine Moves.giveVerdict (Moves.setSnapshot .refl).setReply.slotNote ?_ role header turn
      rw [State.port, State.slotNote_ports, ← hf]
      rfl
    · exact .giveVerdict (.setSnapshot .refl) hf role header turn
  · exact .giveVerdict .refl hf role header turn

theorem Moves.deferVerdict {hit : Candidate} : Moves c s (s.deferVerdict p g v hit) := by
  unfold State.deferVerdict
  dsimp only
  split
  · rename_i h
    exact (Moves.reserve .refl h.2).giveVerdict hf role header turn
  · exact .giveVerdict .refl hf role header turn

theorem Moves.decideVerdict : Moves c s (s.decideVerdict p g v) := by
  unfold State.decideVerdict
  split
  · exact .deliverVerdict hf role header turn
  · exact .replySlotVerdict hf role header turn
  · exact .giveVerdict .refl hf role header turn
  · exact .deferVerdict hf role header turn
  · exact .giveVerdict .refl hf role header turn

end

theorem Moves.receiverBreaks {p : PortId} {f : FrameRec} {low : Option Time} (h : Moves c s t)
    (hs : (t.port p).state ≠ .holding) : Moves c s (t.receiverBreaks p f low) := by
  refine (h.count.dropService.setPort (Port.becomes_endFrame ?_ _ _)).setSnapshot
  rw [State.dropService_port_state, State.count_port_self]
  exact hs

theorem execHeaderVerdict_runs (p : PortId) (length : Byte) : Runs c (execHeaderVerdict p length) :=
    .of_next fun s => by
  refine Moves.inFrame' fun f hf => ?_
  have serves : (s.port p).state = .serving ∨ (s.port p).state = .observing →
      Moves c s
        (if Config.maxLength < length.toNat then
          s.receiverBreaks p { f with length := some length }
            (lowFrom (levelOfBit (lastBit length)) ((s.port p).bdaLowAt s.timeBase))
        else
          match (s.port p).state, f.service with
          | .serving, some v =>
            s.decideVerdict p { f with length := some length }
              { v with expected := length.toNat, verdictTime := some s.timeBase }
          | _, _ => s.setFrame p { f with length := some length, position := .headerSlot }
              (levelOfBit (lastBit length))) := by
    intro hs
    split
    · exact .receiverBreaks .refl (by rcases hs with hs | hs <;> simp [hs])
    · split
      · exact .decideVerdict hf rfl rfl rfl
      · exact .setFrame .refl hf rfl rfl rfl
  dsimp only
  split
  · split
    · exact serves (.inl ‹_›)
    · exact serves (.inr ‹_›)
    · rename_i hs
      split
      · exact .byteSent .refl (.inl hs) hf rfl rfl rfl
      · exact .refl
    · exact .refl
  · exact .refl

theorem execByteReceived_runs (p : PortId) (byte : Byte) : Runs c (execByteReceived p byte) := .of_next fun s => by
  refine Moves.inFrame' fun f hf => ?_
  dsimp only
  split
  · rename_i hs _ _
    exact .setFrame_driveBda .refl (.inr hs) hf rfl rfl rfl
  · exact .observeFrame .refl (by simp [*])
  · exact .setFrame .refl hf rfl rfl rfl
  · exact .setFrame .refl hf rfl rfl rfl
  · rename_i hs _
    split
    · exact .byteSent .refl (.inl hs) hf rfl rfl rfl
    · exact .refl
  · exact .refl

end Sys2Proof.Machine
end

section
/-!
PROOFS. Every command but a reset as a run of moves: slots, turnaround and reply, the ends of a frame, recovery and the
answer windows.
-/
namespace Sys2Proof.Machine
open Sys2Proof.Safety

variable {c : Instr} {s t : State}

/-! ### Acknowledge slots: the initiator (R14 to R18, R53, R64) -/

/-- Where an acknowledge slot leads an initiator, its role, its header and its turn stay. -/
structure FrameRec.SamePart (f g : FrameRec) : Prop where
  role : g.role = f.role
  header : g.rxHeader = f.rxHeader
  turn : g.turn = f.turn

namespace FrameRec

theorem SamePart.orClose {f g : FrameRec} (h : f.SamePart g) (must : Bool) : f.SamePart (g.orClose must) := by
  unfold FrameRec.orClose
  split
  · exact ⟨h.role, h.header, h.turn⟩
  · exact h

theorem samePart_afterHeaderSlot (f : FrameRec) (d : Desc) (reading : SlotReading) :
    f.SamePart (f.afterHeaderSlot d reading) := by
  have first : f.SamePart
      (if 0 < d.outLength then { f with position := .byte 0 }
      else if d.kind = .query then { f with position := .turnaround }
      else f.close (some .success)) := by
    split_ifs <;> exact ⟨rfl, rfl, rfl⟩
  unfold FrameRec.afterHeaderSlot
  dsimp only
  split
  · exact ⟨rfl, rfl, rfl⟩
  · split
    · exact first
    · exact ⟨rfl, rfl, rfl⟩
  · exact first

theorem samePart_afterByteSlot (f : FrameRec) (d : Desc) (n : Nat) (reading : SlotReading) :
    f.SamePart (f.afterByteSlot d n reading) := by
  have next : f.SamePart
      (if n + 1 < d.outLength then { f with moved := n + 1, position := .byte (n + 1) }
      else if d.kind = .query then { f with moved := n + 1, position := .turnaround }
      else FrameRec.close { f with moved := n + 1 } (some .success)) := by
    split_ifs <;> exact ⟨rfl, rfl, rfl⟩
  unfold FrameRec.afterByteSlot
  dsimp only
  split
  · exact next
  · split
    · exact next
    · exact ⟨rfl, rfl, rfl⟩
    · exact ⟨rfl, rfl, rfl⟩

theorem samePart_afterReplySlot (f : FrameRec) (d : Desc) (n : Nat) : f.SamePart (f.afterReplySlot d n) := by
  unfold FrameRec.afterReplySlot
  split_ifs <;> exact ⟨rfl, rfl, rfl⟩

theorem samePart_afterTurnaround (f : FrameRec) (reading : SlotReading) : f.SamePart (f.afterTurnaround reading) := by
  unfold FrameRec.afterTurnaround
  split <;> exact ⟨rfl, rfl, rfl⟩

theorem samePart_takeReplyLength (f : FrameRec) (length : Byte) : f.SamePart (f.takeReplyLength length) := by
  unfold FrameRec.takeReplyLength
  dsimp only
  split_ifs <;> exact ⟨rfl, rfl, rfl⟩

end FrameRec

section
variable {p : PortId} {f g : FrameRec} {last : Level}

theorem Moves.initiatorGoes {bda : Driver} (hs : (s.port p).state = .initiating) (hf : (s.port p).frame = some f)
    (hg : f.SamePart g) : Moves c s (s.initiatorGoes p g bda last) := by
  unfold State.initiatorGoes
  dsimp only
  split
  · refine (Moves.setFrame .refl hf hg.role hg.header hg.turn).setPort ?_
    rw [State.setFrame, State.setPort_port_self]
    exact .of_frame rfl rfl rfl rfl rfl (.inr (.inl hs)) rfl rfl rfl rfl
  · exact .setFrame_driveBda .refl (.inl hs) hf hg.role hg.header hg.turn

theorem Moves.initiatorSlot {r : SubId} {d : Desc} {reading : SlotReading} (hs : (s.port p).state = .initiating)
    (hf : (s.port p).frame = some f) : Moves c s (s.initiatorSlot p f r d reading last) := by
  have header := Moves.initiatorGoes (c := c) (bda := .released) (last := last) hs hf
    ((f.samePart_afterHeaderSlot d reading).orClose (s.mustClose f))
  have byte := fun n => Moves.initiatorGoes (c := c) (bda := .released) (last := last) hs hf
    ((f.samePart_afterByteSlot d n reading).orClose (s.mustClose f))
  unfold State.initiatorSlot
  dsimp only
  split
  · exact header
  · exact header
  · exact header
  · exact byte _
  · exact byte _
  · split
    · exact (Moves.observeFrame .refl (by simp [hs])).attemptOver .refl
    · exact .initiatorGoes hs hf (f.samePart_afterReplySlot d _)
  · exact .refl

/-! ### Acknowledge slots: the serving port (R31, R92, R107, R112, R114) -/

/-- R31: a port that holds, with its window WAITING. -/
theorem portShape_of_holding {y : Port} (hy : y.state = .holding) (hg : y.frame = some g)
    (hd : y.bckDriver = .drivenLow ∧ y.bdaDriver = .drivenLow) (hr : g.role = .target)
    (hw : isWaiting y.window = true) : PortShape y := by
  simp [PortShape, hy, hg, hd.1, hd.2, hw, hr]

/-- R82: a listener serves NOTICEs alone, so that the port that a QUERY reaches is its target. -/
theorem role_of_query {x : Port} (h : PortShape x) (hs : x.state = .serving) (hf : x.frame = some f)
    (hq : Header.frameKind f.rxHeader = .query) : f.role = .target := by
  rcases role_of_serving h hs hf with hr | ⟨-, hn⟩
  · exact hr
  · rw [hq] at hn
    cases hn

theorem Moves.reachTurnaround {v : ServiceRec} (h : Moves c s t) (hs : (t.port p).state = .serving)
    (hf : (t.port p).frame = some f) (hq : Header.frameKind f.rxHeader = .query) :
    Moves c s (t.reachTurnaround p f v last) := by
  unfold State.reachTurnaround
  dsimp only
  split
  · split
    · refine Moves.handRecord (h.setPort ⟨rfl, fun hx => ?_⟩)
      have hrole : f.role = .target := role_of_query hx hs hf hq
      exact portShape_of_holding rfl rfl ⟨rfl, rfl⟩ hrole rfl
    · exact h.setFrame hf rfl rfl rfl
  · exact h.setFrame hf rfl rfl rfl

theorem Moves.driveBda {d : Driver} (h : Moves c s t) (hs : (t.port p).state = .initiating ∨ (t.port p).state = .serving)
    (hf : (t.port p).frame = some f) : Moves c s (t.driveBda p d) :=
  h.setPort (.of_frame hf hf rfl rfl rfl (.inr hs) rfl rfl rfl rfl)

theorem Moves.afterAccept {v : ServiceRec} {n : Nat} (hs : (s.port p).state = .serving)
    (hf : (s.port p).frame = some f) : Moves c s (s.afterAccept p f v n last) := by
  have driven : Moves c s (s.driveBda p .drivenLow) := .driveBda .refl (.inr hs) hf
  have hs' : ((s.driveBda p .drivenLow).port p).state = .serving := by rw [State.driveBda, State.setPort_port_self]; exact hs
  have hf' : ((s.driveBda p .drivenLow).port p).frame = some f := by rw [State.driveBda, State.setPort_port_self]; exact hf
  unfold State.afterAccept
  dsimp only
  split_ifs with _ hq
  · exact driven.setFrame hf' rfl rfl rfl
  · exact driven.reachTurnaround hs' hf' hq
  · exact driven.setFrame hf' rfl rfl rfl

theorem Moves.replySlotRead {n : Nat} {reading : SlotReading} (hs : (s.port p).state = .serving)
    (hf : (s.port p).frame = some f) : Moves c s (s.replySlotRead p f n reading last) := by
  have goes : ∀ (g : FrameRec) (d : Driver), f.SamePart g → Moves c s ((s.setFrame p g last).driveBda p d) :=
    fun g d hg => .setFrame_driveBda .refl (.inr hs) hf hg.role hg.header hg.turn
  unfold State.replySlotRead
  dsimp only
  split
  · split_ifs <;> exact goes _ _ ⟨rfl, rfl, rfl⟩
  · exact goes _ _ ⟨rfl, rfl, rfl⟩
  · exact goes _ _ ⟨rfl, rfl, rfl⟩

theorem Moves.servingSlot {v : ServiceRec} {reading : SlotReading} (hs : (s.port p).state = .serving)
    (hf : (s.port p).frame = some f) : Moves c s (s.servingSlot p f v reading last) := by
  have reply : ∀ n, Moves c s
      (if f.overridden then s.setFrame p { f with position := f.observedSlot reading } last
      else s.replySlotRead p f n reading last) := by
    intro n
    split
    · exact .setFrame .refl hf rfl rfl rfl
    · exact .replySlotRead hs hf
  unfold State.servingSlot
  split
  · split_ifs
    exacts [.afterAccept hs hf, .observeFrame .refl (by simp [hs]), .setFrame_driveBda .refl (.inr hs) hf rfl rfl rfl]
  · exact .afterAccept hs hf
  · exact reply _
  · exact reply _
  · exact .refl

end

theorem execAcknowledgeSlot_runs (p : PortId) (presence verdict : Level) :
    Runs c (execAcknowledgeSlot p presence verdict) := .of_next fun s => by
  refine Moves.inFrame' fun f hf => ?_
  dsimp only
  split
  · split
    · exact .initiatorSlot ‹_› hf
    · exact .refl
  · exact .servingSlot ‹_› hf
  · exact .setFrame .refl hf rfl rfl rfl
  · exact .refl

/-! ### Turnaround and reply -/

theorem execTurnaroundSlot_runs (p : PortId) (presence verdict : Level) :
    Runs c (execTurnaroundSlot p presence verdict) := .of_next fun s => by
  refine Moves.inFrame' fun f hf => ?_
  dsimp only
  split
  · exact .initiatorGoes ‹_› hf (f.samePart_afterTurnaround _)
  · rename_i hs _
    split
    · exact .setFrame_driveBda .refl (.inr hs) hf rfl rfl rfl
    · exact .setFrame_driveBda .refl (.inr hs) hf rfl rfl rfl
    · exact .refl
  · exact .observeFrame .refl (by simp [*])
  · exact .setFrame .refl hf rfl rfl rfl
  · exact .refl

theorem execReplyLengthByte_runs (p : PortId) (length : Byte) : Runs c (execReplyLengthByte p length) :=
    .of_next fun s => by
  refine Moves.inFrame' fun f hf => ?_
  dsimp only
  split
  · exact .initiatorGoes ‹_› hf (f.samePart_takeReplyLength length)
  · exact .setFrame .refl hf rfl rfl rfl
  · rename_i hs
    split
    · exact .setFrame .refl hf rfl rfl rfl
    · split
      · exact .byteSent .refl (.inr hs) hf rfl rfl rfl
      · exact .refl
  · exact .refl

theorem Moves.takeReplyByte {p : PortId} {f : FrameRec} {r : SubId} {n : Nat} {byte : Byte}
    (hs : (s.port p).state = .initiating) (hf : (s.port p).frame = some f) :
    Moves c s (s.takeReplyByte p f r n byte) := by
  unfold State.takeReplyByte
  dsimp only
  split
  · exact .refl
  · rename_i he
    split
    · exact .setFrame_driveBda .refl (.inl hs) hf rfl rfl rfl
    · exact Moves.setFrame_driveBda (Moves.setExec_same .refl he rfl rfl) (.inl hs) hf rfl rfl rfl

theorem execReplyByte_runs (p : PortId) (byte : Byte) : Runs c (execReplyByte p byte) := .of_next fun s => by
  refine Moves.inFrame' fun f hf => ?_
  split
  · exact .takeReplyByte ‹_› hf
  · exact .setFrame .refl hf rfl rfl rfl
  · rename_i hs
    split
    · exact .setFrame .refl hf rfl rfl rfl
    · split
      · exact .byteSent .refl (.inr hs) hf rfl rfl rfl
      · exact .refl
  · exact .refl

theorem execOverridden_runs (p : PortId) (bit : Fin 8) : Runs c fun s => execOverridden p s bit := .of_next fun s => by
  refine Moves.inFrame (fun f hf => ?_) fun f hf => ?_
  · split
    · rename_i h
      exact Moves.setPort .refl (.of_frame hf rfl rfl rfl rfl (.inr (.inr h.1)) rfl rfl rfl rfl)
    · exact .refl
  · split
    · exact .leavesFrame .refl
    · exact .refl

/-! ### Holds -/

/-- R4, R29: an observing port drives nothing. -/
theorem State.bdaInBit_of_observing {p : PortId} {x : Port} {f : FrameRec} {bit : Fin 8} (hs : x.state = .observing) :
    s.bdaInBit p x f bit = .released := by
  simp [State.bdaInBit, State.sentByte, hs]

theorem State.bdaInBit_of_arbitrating {p : PortId} {x : Port} {f : FrameRec} {bit : Fin 8} (hs : x.state = .arbitrating) :
    s.bdaInBit p x f bit = x.bdaDriver := by
  simp [State.bdaInBit, hs]

/-- R13: BCK stays low in a bit of a port's frame. -/
theorem Port.becomes_bckHeld {x : Port} {f g : FrameRec} {now : Time} {bit : Nat} {d : Driver} (hf : x.frame = some f)
    (hg : f.SamePart g)
    (hd : x.state = .initiating ∨ x.state = .serving ∨ (x.state = .observing ∧ d = .released) ∨ d = x.bdaDriver) :
    x.Becomes { x.bckHeld now bit d with frame := some g } := by
  have drives : d = x.bdaDriver ∨ x.state = .initiating ∨ x.state = .serving →
      x.Becomes { x.bckHeld now bit d with frame := some g } := fun hd =>
    .of_frame hf rfl rfl rfl rfl hd rfl hg.role hg.header hg.turn
  rcases hd with hs | hs | ⟨hs, rfl⟩ | hd
  · exact drives (.inr (.inl hs))
  · exact drives (.inr (.inr hs))
  · refine ⟨rfl, fun h => ?_⟩
    simp only [PortShape, hs, hf] at h
    simpa [PortShape, hs, hg.role, hg.turn, h.1.1.1] using And.intro h.1.2 h.2
  · exact drives (.inl hd)

theorem execHold_runs (p : PortId) (bit : Fin 8) : Runs c fun s => execHold p s bit := .of_next fun s => by
  have found : ∀ f, (s.port p).frame = some f →
      Moves c s
        (match (s.port p).state with
         | .initiating =>
           s.setPort p
             { (s.port p).bckHeld s.timeBase bit (s.bdaInBit p (s.port p) f bit) with
               frame := some { f with holdSince := some s.timeBase, bit := bit.val, held := true } }
         | .arbitrating | .observing | .serving =>
           s.setPort p
             { (s.port p).bckHeld s.timeBase bit (s.bdaInBit p (s.port p) f bit) with
               frame := some { f with bit := bit.val, held := true } }
         | _ => s) := by
    intro f hf
    split
    · exact Moves.setPort .refl (Port.becomes_bckHeld hf ⟨rfl, rfl, rfl⟩ (.inl ‹_›))
    · exact Moves.setPort .refl (Port.becomes_bckHeld hf ⟨rfl, rfl, rfl⟩
        (.inr (.inr (.inr (State.bdaInBit_of_arbitrating ‹_›)))))
    · rename_i hs
      exact Moves.setPort .refl (Port.becomes_bckHeld hf ⟨rfl, rfl, rfl⟩
        (.inr (.inr (.inl ⟨hs, State.bdaInBit_of_observing hs⟩))))
    · exact Moves.setPort .refl (Port.becomes_bckHeld hf ⟨rfl, rfl, rfl⟩ (.inr (.inl ‹_›)))
    · exact .refl
  refine Moves.inFrame found fun f hf => ?_
  split
  · exact .leavesFrame .refl
  · exact found f hf

theorem execHoldCeilingPassed_runs (p : PortId) : Runs c (execHoldCeilingPassed p) := .of_next fun s => by
  refine Moves.event (Moves.onFrame fun f hf => ?_) .refl
  split
  · exact Moves.setPort (t := { s with timeBase := _ }) (Moves.setTime .refl)
      (.of_frame hf rfl rfl rfl rfl (.inl rfl) rfl rfl rfl rfl)
  · exact .refl

/-! ### The ends of a frame -/

theorem Moves.servingCloses {p : PortId} {f : FrameRec} {v : ServiceRec} (hs : (s.port p).state = .serving) :
    Moves c s (s.servingCloses p f v) := by
  have closes : ∀ t, Moves c s t → (t.port p).state = .serving →
      Moves c s ((t.setPort p ((t.port p).toIdle (some s.timeBase))).setSnapshot p none) := fun t h ht =>
    (h.setPort (Port.becomes_toIdle (by simp [ht]) _)).setSnapshot
  have hc : ((s.count p .framesServed).port p).state = .serving := by rw [State.count_port_state, hs]
  unfold State.servingCloses
  split_ifs
  · exact closes _ (Moves.deliver (.count .refl)) (by rw [State.deliver_port_state, hc])
  · exact closes _ (Moves.endEarly (.count .refl)) (by rw [State.endEarly_port_state, hc])
  · exact closes _ .refl hs

theorem Port.becomes_closesInRecovery {x : Port} {now : Time} (hs : x.state = .recovering) :
    x.Becomes (x.closesInRecovery now) := by
  unfold Port.closesInRecovery
  split
  · split <;> exact .of_recovering rfl rfl hs rfl rfl
  · exact .refl

theorem execClosing_runs (p : PortId) : Runs c (execClosing p) := .of_next fun s => by
  refine Moves.event ?_ (.leavesFrame .refl)
  have idle : (s.port p).state ≠ .holding →
      (s.port p).Becomes ((s.port p).toIdle (some s.timeBase)) := fun hs => Port.becomes_toIdle hs _
  split
  · exact Moves.setPort .refl (.of_same rfl rfl rfl rfl rfl rfl)
  · exact Moves.setPort .refl (Port.becomes_closesInRecovery ‹_›)
  · exact Moves.setPort .refl (.of_same rfl rfl rfl rfl rfl rfl)
  · dsimp only
    split
    · exact (Moves.setPort .refl (idle (by simp [*]))).returnTurn
    · exact Moves.setPort .refl (idle (by simp [*]))
  · split
    · exact .attemptOver .refl (idle (by simp [*]))
    · exact Moves.setPort .refl (idle (by simp [*]))
  · exact Moves.setPort .refl (idle (by simp [*]))
  · split
    · exact .servingCloses ‹_›
    · exact Moves.setPort .refl (idle (by simp [*]))
  · exact .refl

theorem Moves.frameBreaks {p : PortId} {f : FrameRec} {low : Option Time} :
    Moves c s (s.frameBreaks p (s.port p) f low) := by
  unfold State.frameBreaks
  split
  · exact (Moves.setPort .refl (Port.becomes_endFrame (by simp [*]) _ _)).returnTurn
  · exact .attemptOver .refl (Port.becomes_endFrame (by simp [*]) _ _)
  · exact .receiverBreaks .refl (by simp [*])
  · exact .receiverBreaks .refl (by simp [*])
  · exact .receiverBreaks .refl (by simp [*])
  · exact .refl

theorem execFrameBroken_runs (p : PortId) (cause : BreakCause) : Runs c (execFrameBroken p cause) :=
  .of_next fun _ => Moves.inFrame' fun _ _ => .frameBreaks

/-- R20: the silence of a receiver runs in ARBITRATING, OBSERVING or SERVING alone. -/
theorem Port.not_holding_of_receiverSilence {x : Port} {f : FrameRec} {since : Time}
    (h : x.receiverSilence f = some since) : x.state ≠ .holding := by
  intro hs
  simp [Port.receiverSilence, hs] at h

theorem execFrameSilence_runs (p : PortId) (bda : Level) : Runs c (execFrameSilence p bda) := .of_next fun s => by
  refine Moves.inFrame (fun f hf => ?_) fun f hf => ?_
  · split
    · rename_i h
      exact (Moves.setTime .refl).receiverBreaks (Port.not_holding_of_receiverSilence h)
    · exact .refl
  · split
    · exact .leavesFrame .refl
    · exact .refl

theorem execClash_runs (p : PortId) (bit : Fin 8) : Runs c fun s => execClash p s bit := .of_next fun s => by
  refine Moves.inFrame (fun f hf => ?_) fun f hf => ?_
  · split
    · rename_i hs _
      split
      · refine Moves.attemptOver (.count .refl) ((Port.becomes_clocked s.timeBase .dominant bit).trans
          (Port.becomes_toObserving (x := ((s.count p .clashes).port p).clocked s.timeBase .dominant bit) ?_))
        rw [Port.clocked_state, State.count_port_state, hs]
        nofun
      · exact .refl
    · exact .refl
  · split
    · exact .leavesFrame .refl
    · exact .refl

/-! ### Idle gap, stuck lines, recovery -/

theorem Port.becomes_lineFalls (x : Port) (line : Line) (now : Time) : x.Becomes (x.lineFalls line now) := by
  cases line <;> exact .of_same rfl rfl rfl rfl rfl rfl

theorem Port.becomes_lineRises (x : Port) (line : Line) (now : Time) : x.Becomes (x.lineRises line now) := by
  unfold Port.lineRises
  cases line <;> dsimp only <;> split <;> exact .of_same rfl rfl rfl rfl rfl rfl

theorem Port.becomes_bckRisesInRecovery (x : Port) (now : Time) : x.Becomes (x.bckRisesInRecovery now) := by
  unfold Port.bckRisesInRecovery
  split
  · split
    · exact .of_recovering rfl rfl ‹_› rfl rfl
    · exact .of_recovering rfl rfl ‹_› rfl rfl
    · exact .refl
    · exact .refl
    · exact .refl
  · exact .refl

theorem Port.becomes_lineInFrame (x : Port) (line : Line) (moment : LineMoment) (now : Time) :
    x.Becomes (x.lineInFrame line moment now) := by
  unfold Port.lineInFrame
  cases hf : x.frame with
  | none => cases line <;> cases moment <;> exact .of_same rfl rfl rfl rfl (by simp [hf]) rfl
  | some f =>
    cases line <;> cases moment
    · exact .of_frame hf rfl rfl rfl rfl (.inl rfl) rfl rfl rfl rfl
    · exact .of_frame hf rfl rfl rfl rfl (.inl rfl) rfl rfl rfl rfl
    · exact .of_same rfl rfl rfl rfl hf.symm rfl
    · exact .of_same rfl rfl rfl rfl hf.symm rfl

theorem execLineGoesLow_runs (p : PortId) (line : Line) (moment : LineMoment) :
    Runs c fun s => execLineGoesLow p line s moment := .of_next fun s => by
  have outside : (s.port p).Becomes
      (match line, moment with
       | _, .falls => (s.port p).lineFalls line s.timeBase
       | .bck, .rises => ((s.port p).lineRises .bck s.timeBase).bckRisesInRecovery s.timeBase
       | .bda, .rises => (s.port p).lineRises .bda s.timeBase) := by
    split
    · exact Port.becomes_lineFalls ..
    · exact (Port.becomes_lineRises ..).trans (Port.becomes_bckRisesInRecovery ..)
    · exact Port.becomes_lineRises ..
  have inside : Moves c s (s.setPort p ((s.port p).lineInFrame line moment s.timeBase)) :=
    Moves.setPort .refl (Port.becomes_lineInFrame ..)
  refine Moves.event ?_ (Moves.onFrame fun _ _ => inside)
  split
  · exact Moves.setPort .refl outside
  · exact Moves.setPort .refl outside
  · exact Moves.setPort .refl outside
  · exact inside
  · exact inside
  · exact inside
  · exact inside
  · exact .refl
  · exact .refl

theorem execIdleGap_runs (p : PortId) : Runs c (execIdleGap p) := .of_next fun s => by
  refine Moves.event ?_ .refl
  split
  · dsimp only
    split
    · split
      · exact .refl
      · exact Moves.setPort (t := { s with timeBase := _ }) (Moves.setTime .refl) (.of_same rfl rfl rfl rfl rfl rfl)
    · rename_i hs
      split
      · exact Moves.recovered (t := { s with timeBase := _ }) (Moves.setTime .refl)
          (.trans (y := (s.port p).toIdle none) (Port.becomes_toIdle (x := s.port p) (by simp [hs]) none)
            (.of_same rfl rfl rfl rfl rfl rfl))
      · exact .refl
    · exact .refl
  · exact .refl

theorem Moves.handOverStuck {p : PortId} {x : Port} (h : Moves c s t) : Moves c s (t.handOverStuck p x) := by
  unfold State.handOverStuck
  split
  · split
    · exact h.stickTurn
    · exact h.endAttempt
    · exact h.dropService
    · exact h
  · exact h

theorem Port.becomes_holdsLow (x : Port) (line : Line) (now : Time) : x.Becomes (x.holdsLow line now) := by
  cases line <;> exact .of_same rfl rfl rfl rfl rfl rfl

theorem execStuckCondition_runs (p : PortId) (line : Line) : Runs c (execStuckCondition p line) := .of_next fun s => by
  have acts : (s.port p).state ≠ .holding →
      let t := { s with timeBase := dueAfter ((s.port p).lowSince line) (1000 * (s.port p).config.stuckLimit) s.timeBase }
      let t := ((t.count p .stuckEvents).handOverStuck p (s.port p)).setSnapshot p none
      Moves c s
        (if (s.port p).stopPending then (t.enterOff p).inRingOrder s
        else t.setPort p (((t.port p).holdsLow line t.timeBase).toRecovering t.timeBase)) := by
    intro hs t u
    have hu : Moves c s u := (Moves.count (Moves.setTime .refl)).handOverStuck.setSnapshot
    split
    · exact hu.enterOff.inRingOrder
    · refine hu.setPort ((Port.becomes_holdsLow ..).trans
        (Port.becomes_toRecovering (x := (u.port p).holdsLow line u.timeBase) ?_ _))
      have hstate : ((u.port p).holdsLow line u.timeBase).state = (u.port p).state := by cases line <;> rfl
      have hkept : (u.port p).state = (s.port p).state :=
        (State.handOverStuck_port_state (t.count p .stuckEvents) p (s.port p)).trans (State.count_port_state t p p _)
      rwa [hstate, hkept]
  refine Moves.event ?_ (.leavesFrame .refl)
  split
  · exact acts (by simp [*])
  · exact acts (by simp [*])
  · exact acts (by simp [*])
  · exact acts (by simp [*])
  · exact acts (by simp [*])
  all_goals exact .refl

theorem Moves.recoveryFails {p : PortId} {x : Port} (h : Moves c s t) (hx : (t.port p).Becomes x)
    (hs : x.state ≠ .holding) : Moves c s (t.recoveryFails p x) := by
  have faulted : Moves c s (t.setPort p x.toFaulted) := h.setPort (hx.trans (Port.becomes_toFaulted hs))
  unfold State.recoveryFails State.endRecover
  split
  · exact faulted.finishAdmin.portDown
  · exact faulted.portDown

theorem Port.failsBy_becomes (x : Port) (v : Recovery) (line : Line) (now : Time) :
    x.Becomes (x.failsBy v line now) ∧ (x.failsBy v line now).state = x.state := by
  unfold Port.failsBy
  cases line <;> dsimp only <;> split <;> exact ⟨.of_same rfl rfl rfl rfl rfl rfl, rfl⟩

theorem execRecoveryFailed_runs (p : PortId) (line : Line) : Runs c fun s => execRecoveryFailed p s line :=
    .of_next fun s => by
  refine Moves.event ?_ .refl
  split
  · rename_i v hs _
    split
    · obtain ⟨hx, hstate⟩ := (s.port p).failsBy_becomes v line s.timeBase
      exact Moves.recoveryFails (t := { s with timeBase := _ }) (Moves.setTime .refl) hx (by simp [hstate, hs])
    · exact .refl
  · exact .refl

theorem execClockPulse_runs (p : PortId) (bda : Level) : Runs c (execClockPulse p bda) := .of_next fun s => by
  refine Moves.event ?_ .refl
  split
  · rename_i hs _
    split
    · dsimp only
      split
      · exact Moves.setPort .refl (.of_recovering rfl rfl hs rfl rfl)
      · split
        · exact Moves.recoveryFails .refl (.of_same rfl rfl rfl rfl rfl rfl) (by simp [hs])
        · exact Moves.setPort .refl (.of_recovering rfl rfl hs rfl rfl)
    · exact .refl
  · exact .refl

/-! ### The answer windows (chapter 6) -/

theorem execAnswerTaken_runs (r : SubId) (bck : Level) : Runs c fun s => execAnswerTaken r s bck :=
    .of_next fun s => by
  split
  · split
    · dsimp only
      split
      · rename_i hw
        split
        · exact Moves.setPort .refl (Port.becomes_endHold (by rw [hw]; rfl) (.inl rfl) rfl)
        · exact Moves.completeAnswer .refl
      · exact Moves.completeAnswer .refl
    · exact .refl
  · exact .refl

theorem execAnswerLimitExpiry_runs (p : PortId) (bck : Level) : Runs c fun s => execAnswerLimitExpiry p s bck :=
    .of_next fun s => by
  refine Moves.event ?_ .refl
  split
  · rename_i hw
    exact Moves.closeQuery (t := { s with timeBase := _ }) (Moves.setTime .refl)
      (show isWaiting (s.port p).window = true by rw [hw]; rfl)
  · exact .refl

/-! ### All commands -/

/-- Every command but a reset is a run of moves. -/
theorem exec_runs {c : Instr} (hc : resets c = false) : Runs c (exec c) := by
  cases c with
  | powerOn | pcieLinkReset | functionLevelReset | softReset => cases hc
  | enable => exact execEnable_runs
  | halt => exact execHalt_runs
  | resume => exact execResume_runs
  | clearNotes selection => exact execClearNotes_runs selection
  | unknownEngineCommand code => exact execUnknownEngineCommand_runs code
  | setupAddressWrite high value => exact execSetupAddressWrite_runs high value
  | post w => exact execPost_runs w
  | ack w => exact execAck_runs w
  | ignoredRegisterWrite word enables value => exact .of_next fun _ => .refl
  | setupReadEnd read => exact execSetupReadEnd_runs read
  | fetchStart r => exact execFetchStart_runs r
  | slotReadEnd r read => exact execSlotReadEnd_runs r read
  | payloadReadEnd r read => exact execPayloadReadEnd_runs r read
  | unknownCommand => exact execUnknownCommand_runs
  | createSubmissionRing => exact execCreateSubmissionRing_runs
  | deleteSubmissionRing b => exact execDeleteSubmissionRing_runs b
  | createCompletionRing => exact execCreateCompletionRing_runs
  | deleteCompletionRing => exact execDeleteCompletionRing_runs
  | setVector => exact execSetVector_runs
  | createReceiveRing => exact execCreateReceiveRing_runs
  | deleteReceiveRing => exact execDeleteReceiveRing_runs
  | setPort => exact execSetPort_runs
  | portControlStart bck bda => exact execPortControlStart_runs bck bda
  | portControlStop bck => exact execPortControlStop_runs bck
  | portControlRecover => exact execPortControlRecover_runs
  | readPortStats => exact execReadPortStats_runs
  | statsWriteEnd write => exact execStatsWriteEnd_runs write
  | setMatch => exact execSetMatch_runs
  | clearMatch => exact execClearMatch_runs
  | setReply => exact execSetReply_runs
  | setReplyReadEnd read => exact execSetReplyReadEnd_runs read
  | clearReply => exact execClearReply_runs
  | clearHealth => exact execClearHealth_runs
  | readHealth => exact execReadHealth_runs
  | healthWriteEnd write => exact execHealthWriteEnd_runs write
  | abort b => exact execAbort_runs b
  | schedulerChoice p opens => exact execSchedulerChoice_runs p opens
  | opening p => exact execOpening_runs p
  | arbitrationLoss p bit => exact execArbitrationLoss_runs p bit
  | headerJudgement p wire => exact execHeaderJudgement_runs p wire
  | channelByte p byte => exact execChannelByte_runs p byte
  | headerVerdict p length => exact execHeaderVerdict_runs p length
  | byteReceived p byte => exact execByteReceived_runs p byte
  | acknowledgeSlot p presence verdict => exact execAcknowledgeSlot_runs p presence verdict
  | turnaroundSlot p presence verdict => exact execTurnaroundSlot_runs p presence verdict
  | replyLengthByte p length => exact execReplyLengthByte_runs p length
  | replyByte p byte => exact execReplyByte_runs p byte
  | clash p bit => exact execClash_runs p bit
  | closing p => exact execClosing_runs p
  | frameBroken p cause => exact execFrameBroken_runs p cause
  | frameSilence p bda => exact execFrameSilence_runs p bda
  | idleGap p => exact execIdleGap_runs p
  | holdCeilingPassed p => exact execHoldCeilingPassed_runs p
  | stuckCondition p line => exact execStuckCondition_runs p line
  | recoveryFailed p line => exact execRecoveryFailed_runs p line
  | answerTaken r bck => exact execAnswerTaken_runs r bck
  | answerLimitExpiry p bck => exact execAnswerLimitExpiry_runs p bck
  | deadlineExpiry r => exact execDeadlineExpiry_runs r
  | replyStoreEnd r write => exact execReplyStoreEnd_runs r write
  | completionWriteStart k => exact execCompletionWriteStart_runs k
  | completionWriteEnd k write => exact execCompletionWriteEnd_runs k write
  | receiveWriteStart r => exact execReceiveWriteStart_runs r
  | receiveWriteEnd r write => exact execReceiveWriteEnd_runs r write
  | coalescingTimer ring => exact execCoalescingTimer_runs ring
  | messageWriteEnd v write => exact execMessageWriteEnd_runs v write
  | clockPulse p bda => exact execClockPulse_runs p bda
  | lineGoesLow p line moment => exact execLineGoesLow_runs p line moment
  | hold p bit => exact execHold_runs p bit
  | overridden p bit => exact execOverridden_runs p bit

end Sys2Proof.Machine
end

section
/-!
PROOFS. What every command keeps, by its moves: the queue of commands (O2), the tables that only their own commands change
(O52), and the invariants of a step (O54 here). `step_keeps` says what an invariant needs: that it does not speak of the
queue, that it holds after a reset, and that each move keeps it.
-/
namespace Sys2Proof.Machine
open Sys2Proof.Safety

variable {c : Instr} {s t : State}

/-! ### From a move to a step -/

/-- R182, R183: a reset leads to the reset state, with some setup address and the queue as it was. -/
theorem exec_of_resets (hc : resets c = true) (s : State) :
    ∃ a, exec c s = .next { State.reset with setupAddress := a, pending := s.pending } := by
  cases c with
  | powerOn => exact ⟨_, rfl⟩
  | pcieLinkReset | functionLevelReset | softReset => exact ⟨_, rfl⟩
  | _ => cases hc

/-- What every move keeps, every command but a reset keeps. -/
theorem exec_keeps {I : State → Prop} (hmove : ∀ {s t}, Move c s t → I s → I t) (hc : resets c = false)
    (h : exec c s = .next t) (hI : I s) : I t := by
  have hrun : Moves c s t := exec_runs hc s t h
  clear h
  induction hrun with
  | refl => exact hI
  | tail _ hm ih => exact hmove hm ih

/-- An invariant that does not speak of the queue, holds after a reset and is kept by each move is kept by every step. -/
theorem step_keeps {I : State → Prop} (hqueue : ∀ s rest, I s → I { s with pending := rest })
    (hreset : ∀ a pending, I { State.reset with setupAddress := a, pending })
    (hmove : ∀ {c s t}, Move c s t → I s → I t) (hI : I s) (h : step s = .next t) : I t := by
  unfold step at h
  split at h
  · rename_i c rest _
    cases hc : resets c with
    | false => exact exec_keeps hmove hc h (hqueue s rest hI)
    | true =>
      obtain ⟨a, ht⟩ := exec_of_resets hc { s with pending := rest }
      cases ht.symm.trans h
      exact hreset a rest
  · cases h
    exact hmove (c := .enable) (.other ..) hI

/-! ### The parts that only some moves change -/

theorem State.handOver_keeps (s : State) (r : SubId) (d : Done) :
    (s.handOver r d).engine = s.engine ∧ (s.handOver r d).cause = s.cause ∧ (s.handOver r d).ports = s.ports ∧
      (s.handOver r d).roundRobin = s.roundRobin ∧ (s.handOver r d).rcvs = s.rcvs ∧
      (s.handOver r d).vectors = s.vectors ∧ (s.handOver r d).health = s.health ∧ (s.handOver r d).entries = s.entries ∧
      (s.handOver r d).pending = s.pending := by
  obtain ⟨_, _, h⟩ := s.handOver_frame r d
  rw [h]
  exact ⟨rfl, rfl, rfl, rfl, rfl, rfl, rfl, rfl, rfl⟩

/-- R71 to R73: a target failure changes the health table, or counts at its port. -/
theorem State.targetFailure_cases (s : State) (p : PortId) (st : Station) :
    (∃ health, s.targetFailure p st = { s with health }) ∨ s.targetFailure p st = s.count p .healthUntracked := by
  unfold State.targetFailure
  dsimp only
  split
  · exact .inl ⟨_, rfl⟩
  · split_ifs
    exacts [.inl ⟨_, rfl⟩, .inl ⟨_, rfl⟩, .inr rfl]

/-! ### The queue of commands (R59, R113, R181) -/

theorem Move.pending (h : Move c s t) : t.pending = s.pending := by
  cases h with
  | handOver r d => obtain ⟨-, -, -, -, -, -, -, -, h⟩ := s.handOver_keeps r d; exact h
  | targetFailure p st =>
    rcases s.targetFailure_cases p st with ⟨_, h⟩ | h
    · rw [h]
    · rw [h]; rfl
  | targetSuccess p st => obtain ⟨_, h⟩ := s.targetSuccess_frame p st; rw [h]
  | _ => rfl

theorem exec_completes (c : Instr) (s : State) : ∃ t, exec c s = .next t := by cases c <;> exact ⟨_, rfl⟩

/-- Settles O2: every meaning answers a next state, and no move touches the queue; a reset keeps it. -/
theorem everyCommandCompletes : Obligations.EveryCommandCompletes := by
  intro c s
  cases hc : resets c with
  | false =>
    obtain ⟨t, ht⟩ := exec_completes c s
    exact ⟨t, ht, exec_keeps (I := fun u => u.pending = s.pending) (fun hm hu => hm.pending.trans hu) hc ht rfl⟩
  | true =>
    obtain ⟨a, ht⟩ := exec_of_resets hc s
    exact ⟨_, ht, rfl⟩

/-! ### The tables that commands configure (R83, R32, R153, R48) -/

theorem Move.entries (h : Move c s t) (hset : c ≠ .setMatch) (hclear : c ≠ .clearMatch) : t.entries = s.entries := by
  cases h with
  | entry hc => rcases hc with hc | hc <;> contradiction
  | handOver r d => obtain ⟨-, -, -, -, -, -, -, h, -⟩ := s.handOver_keeps r d; exact h
  | targetFailure p st =>
    rcases s.targetFailure_cases p st with ⟨_, h⟩ | h
    · rw [h]
    · rw [h]; rfl
  | targetSuccess p st => obtain ⟨_, h⟩ := s.targetSuccess_frame p st; rw [h]
  | _ => rfl

theorem Move.roundRobin (h : Move c s t) (hc : ∀ p, c ≠ .schedulerChoice p true) : t.roundRobin = s.roundRobin := by
  cases h with
  | position hp =>
    obtain ⟨p, hp⟩ := hp
    exact absurd hp (hc p)
  | handOver r d => obtain ⟨-, -, -, h, -⟩ := s.handOver_keeps r d; exact h
  | targetFailure p st =>
    rcases s.targetFailure_cases p st with ⟨_, h⟩ | h
    · rw [h]
    · rw [h]; rfl
  | targetSuccess p st => obtain ⟨_, h⟩ := s.targetSuccess_frame p st; rw [h]
  | _ => rfl

theorem State.setVector_table {v : VecId} {x : IrqVector} (h : x.address = (s.vector v).address)
    (hd : x.data = (s.vector v).data) (hm : x.masked = (s.vector v).masked) (k : VecId) :
    ((s.setVector v x).vector k).address = (s.vector k).address ∧
      ((s.setVector v x).vector k).data = (s.vector k).data ∧
      ((s.setVector v x).vector k).masked = (s.vector k).masked := by
  rw [State.setVector_vector_eq]
  split
  · subst k
    exact ⟨h, hd, hm⟩
  · exact ⟨rfl, rfl, rfl⟩

theorem Move.vectors (h : Move c s t) (hc : c ≠ .setVector) (v : VecId) :
    (t.vector v).address = (s.vector v).address ∧ (t.vector v).data = (s.vector v).data ∧
      (t.vector v).masked = (s.vector v).masked := by
  cases h with
  | vector h => exact absurd h hc
  | pended k => exact State.setVector_table (s := s) (x := { s.vector k with pending := true }) rfl rfl rfl v
  | handOver r d =>
    obtain ⟨-, -, -, -, -, h, -⟩ := s.handOver_keeps r d
    simp only [State.vector, h, and_self]
  | targetFailure p st => rcases s.targetFailure_cases p st with ⟨_, h⟩ | h <;> rw [h] <;> exact ⟨rfl, rfl, rfl⟩
  | targetSuccess p st => obtain ⟨_, h⟩ := s.targetSuccess_frame p st; rw [h]; exact ⟨rfl, rfl, rfl⟩
  | _ => exact ⟨rfl, rfl, rfl⟩

theorem State.setPort_config {p : PortId} {y : Port} (h : y.config = (s.port p).config) (k : PortId) :
    ((s.setPort p y).port k).config = (s.port k).config := by
  rw [State.setPort_port_eq]
  split
  · subst k
    exact h
  · rfl

theorem State.map_port (s : State) (g : Port → Port) (p : PortId) :
    State.port { s with ports := s.ports.map g } p = g (s.port p) := by
  simp [State.port]

theorem Port.leave_config (x : Port) : x.leave.config = x.config := by
  unfold Port.leave
  split <;> rfl

theorem State.fail_port (s : State) (cause : FailureCause) (p : PortId) : (s.fail cause).port p = (s.port p).leave := by
  simp [State.fail, State.port]

theorem Move.port_config (h : Move c s t) (hc : c ≠ .setPort) (p : PortId) : (t.port p).config = (s.port p).config := by
  cases h with
  | config h => exact absurd h hc
  | port q y hy => exact State.setPort_config hy.config p
  | ports g hg => rw [State.map_port]; exact (hg _).config
  | failed cause => rw [State.fail_port, Port.leave_config]
  | handOver r d =>
    obtain ⟨-, -, h, -⟩ := s.handOver_keeps r d
    rw [State.port_of_ports h]
  | targetFailure q st =>
    rcases s.targetFailure_cases q st with ⟨_, h⟩ | h
    · rw [h]; rfl
    · rw [h]; exact State.setPort_config (y := { s.port q with stats := (s.port q).stats.count .healthUntracked }) rfl p
  | targetSuccess q st => obtain ⟨_, h⟩ := s.targetSuccess_frame q st; rw [h]; rfl
  | _ => rfl

/-- Settles O52: no move but those of the tables' own commands changes them. -/
theorem tablesChangeOnlyByTheirCommands : Obligations.TablesChangeOnlyByTheirCommands := by
  intro c s t h hc
  refine ⟨fun hset hclear => ?entries, fun hport p => ?config, fun hvector v => ?vectors, fun hchoice => ?roundRobin⟩
  case entries => exact exec_keeps (I := (·.entries = s.entries)) (fun hm hu => (hm.entries hset hclear).trans hu) hc h rfl
  case config =>
    exact exec_keeps (I := fun u => (u.port p).config = (s.port p).config) (fun hm hu => (hm.port_config hport p).trans hu) hc h
      rfl
  case vectors =>
    refine exec_keeps (I := fun u => (u.vector v).address = (s.vector v).address ∧
      (u.vector v).data = (s.vector v).data ∧ (u.vector v).masked = (s.vector v).masked) (fun hm hu => ?_) hc h
      ⟨rfl, rfl, rfl⟩
    obtain ⟨haddress, hdata, hmasked⟩ := hm.vectors hvector v
    exact ⟨haddress.trans hu.1, hdata.trans hu.2.1, hmasked.trans hu.2.2⟩
  case roundRobin =>
    exact exec_keeps (I := (·.roundRobin = s.roundRobin)) (fun hm hu => (hm.roundRobin hchoice).trans hu) hc h rfl

/-! ### The health table (R68) -/

section
variable {health health' : List HealthEntry}

/-- R68: a list of entries that a health table may hold. -/
def LawfulTable (health : List HealthEntry) : Prop :=
  health.length ≤ 64 ∧ (health.map fun e => (e.port, e.station)).Nodup ∧ ∀ e ∈ health, e.failed ≤ 15

theorem LawfulTable.of_sublist (h : LawfulTable health) (hs : health'.Sublist health) : LawfulTable health' := by
  obtain ⟨hlength, hdistinct, hfailed⟩ := h
  exact ⟨hs.length_le.trans hlength, hdistinct.sublist (hs.map _), fun e he => hfailed e (hs.subset he)⟩

/-- A new entry at the tail of a table that has room and none of its port and station. -/
theorem LawfulTable.append {e : HealthEntry} (h : LawfulTable health) (hroom : health.length < 64)
    (hnew : ∀ x ∈ health, x.names e.port e.station = false) (he : e.failed ≤ 15) : LawfulTable (health ++ [e]) := by
  obtain ⟨-, hdistinct, hfailed⟩ := h
  refine ⟨by simpa using hroom, ?_, ?_⟩
  · rw [List.map_append, List.map_singleton, List.nodup_append]
    refine ⟨hdistinct, by simp, ?_⟩
    rintro a ha b hb rfl
    obtain ⟨x, hx, hxe⟩ := List.mem_map.1 ha
    rw [← hxe, List.mem_singleton, Prod.mk.injEq] at hb
    have hnames := HealthEntry.names_iff.2 hb
    rw [hnew x hx] at hnames
    cases hnames
  · intro x hx
    rcases List.mem_append.1 hx with hx | hx
    · exact hfailed x hx
    · rwa [List.mem_singleton.1 hx]

/-- R71, R74: the entry of a port and station is raised, or made GOOD, at the tail of the others. -/
theorem LawfulTable.touch {p : PortId} {st : Station} {e e' : HealthEntry} (h : LawfulTable health)
    (he : health.find? (·.names p st) = some e) (hp : e'.port = e.port) (hs : e'.station = e.station)
    (hf : e'.failed ≤ 15) : LawfulTable (health.filter (fun x => !x.names p st) ++ [e']) := by
  obtain ⟨hep, hes⟩ := HealthEntry.names_iff.1 (List.find?_some (p := fun x : HealthEntry => x.names p st) he)
  have hmem : e ∈ health := List.mem_of_find?_eq_some he
  refine (h.of_sublist List.filter_sublist).append ?_ (fun x hx => ?_) hf
  · refine Nat.lt_of_lt_of_le (List.length_filter_lt_length_iff_exists.2 ⟨e, hmem, ?_⟩) h.1
    simp [HealthEntry.names_iff.2 ⟨hep, hes⟩]
  · rw [hp, hs, hep, hes]
    simpa using (List.mem_filter.1 hx).2

end

theorem LawfulTable.targetFailure (p : PortId) (st : Station) (h : LawfulTable s.health) :
    LawfulTable (s.targetFailure p st).health := by
  unfold State.targetFailure
  dsimp only
  split
  · rename_i e he
    exact h.touch he rfl rfl (saturate_le Config.countCap e.failed)
  · rename_i he
    have hnew : ∀ x ∈ s.health, x.names p st = false := fun x hx => Bool.eq_false_iff.2 (List.find?_eq_none.1 he x hx)
    split_ifs with hroom hgood
    · exact h.append hroom hnew (show 1 ≤ 15 by decide)
    · obtain ⟨x, hx, hxg⟩ := List.any_eq_true.1 hgood
      refine (h.of_sublist List.eraseP_sublist).append ?_ (fun y hy => hnew y (List.mem_of_mem_eraseP hy))
        (show 1 ≤ 15 by decide)
      have hpos : 0 < s.health.length := List.length_pos_of_mem hx
      have hlength : s.health.length ≤ 64 := h.1
      rw [List.length_eraseP_of_mem hx hxg]
      omega
    · exact h

theorem LawfulTable.targetSuccess (p : PortId) (st : Station) (h : LawfulTable s.health) :
    LawfulTable (s.targetSuccess p st).health := by
  unfold State.targetSuccess
  split
  · rename_i he
    exact h.touch he rfl rfl (Nat.zero_le _)
  · exact h

theorem Move.healthBounded (h : Move c s t) (hs : HealthBounded s) : HealthBounded t := by
  cases h with
  | targetFailure p st => exact LawfulTable.targetFailure p st hs
  | targetSuccess p st => exact LawfulTable.targetSuccess p st hs
  | forget keep => exact LawfulTable.of_sublist hs List.filter_sublist
  | handOver r d =>
    obtain ⟨-, -, -, -, -, -, h, -⟩ := s.handOver_keeps r d
    rw [HealthBounded, h]
    exact hs
  | _ => exact hs

/-- Settles O54: a touched entry takes the place of the one of its port and station, and a new one enters a table that has room
or has given up a GOOD one. -/
theorem healthTableStaysBounded : Obligations.HealthTableStaysBounded :=
  fun _ _ hs => step_keeps (I := HealthBounded) (fun _ _ h => h) (fun _ _ => ⟨Nat.zero_le _, .nil, nofun⟩)
    Move.healthBounded hs

end Sys2Proof.Machine
end

section
/-!
PROOFS. The invariants of the rings that every step keeps: counts and coalescing (O55), the places of submission rings (O56)
and the slots of receive rings (O57). Each speaks of one ring at a time, so that a move keeps it where the ring that the
move writes meets it.
-/
namespace Sys2Proof.Machine
open Sys2Proof.Safety

variable {c : Instr} {s t : State}

/-! ### One ring is written -/

section
variable {P : SubRing → Prop} {Q : CplRing → Prop} {R : RcvRing → Prop}

theorem forall_sub_setSub (h : ∀ r, P (s.sub r)) {k : SubRing} (r : SubId) (hk : P k) : ∀ q, P ((s.setSub r k).sub q) := by
  intro q
  rw [State.setSub_sub_eq]
  split
  · exact hk
  · exact h q

theorem forall_cpl_setCpl (h : ∀ c, Q (s.cpl c)) {k : CplRing} (c : CplId) (hk : Q k) :
    ∀ q, Q ((s.setCpl c k).cpl q) := by
  intro q
  rw [State.setCpl_cpl_eq]
  split
  · exact hk
  · exact h q

theorem forall_rcv_setRcv (h : ∀ r, R (s.rcv r)) {k : RcvRing} (r : RcvId) (hk : R k) :
    ∀ q, R ((s.setRcv r k).rcv q) := by
  intro q
  rw [State.setRcv_rcv_eq]
  split
  · exact hk
  · exact h q

theorem forall_cpl_inRingOrder (h : ∀ c, Q (s.cpl c)) (before : State) (hk : ∀ k n, Q k → Q (k.inRingOrder n)) :
    ∀ q, Q ((s.inRingOrder before).cpl q) := by
  intro q
  rw [State.inRingOrder_cpl]
  exact hk _ _ (h q)

end

theorem State.sub_reset (r : SubId) : State.reset.sub r = .reset := by simp [State.sub, State.reset]
theorem State.cpl_reset (k : CplId) : State.reset.cpl k = .reset := by simp [State.cpl, State.reset]
theorem State.rcv_reset (r : RcvId) : State.reset.rcv r = .reset := by simp [State.rcv, State.reset]
theorem State.port_reset (p : PortId) : State.reset.port p = .reset := by simp [State.port, State.reset]

/-- R134: a hand-over has no effect, or makes its ring COMPLETING and adds an entry of the ring to the posting queue of its
completion ring. -/
theorem State.handOver_cases (s : State) (r : SubId) (d : Done) :
    s.handOver r d = s ∨
      ∃ k e, (s.sub r).completion = some k ∧ ((s.sub r).occupancy = .fetching ∨ (s.sub r).occupancy = .staged) ∧
        e.ring = r ∧ e.attempts = d.attempts ∧ e.losses = d.losses ∧
        s.handOver r d =
          (s.setSub r (completing (s.sub r))).setCpl k { s.cpl k with queue := (s.cpl k).queue ++ [e] } := by
  unfold State.handOver
  dsimp only
  split
  · exact .inl rfl
  · rename_i k hk
    split
    · exact .inr ⟨k, _, hk, ‹_›, rfl, rfl, rfl, rfl⟩
    · exact .inl rfl

/-- R134: the entries that a posting queue holds in ring order are those that it held. -/
theorem CplRing.inRingOrder_perm (k : CplRing) (n : Nat) : (k.inRingOrder n).queue.Perm k.queue := by
  have h : ((k.queue.drop n).insertionSort fun a b => handOverRank a.ring ≤ handOverRank b.ring).Perm (k.queue.drop n) :=
    List.perm_insertionSort _ _
  exact (h.append_left _).trans (List.Perm.of_eq (List.take_append_drop n k.queue))

/-! ### Counts that saturate (R44, R68, R144, R163) -/

/-- R44: the execution record of a ring that is STAGED. -/
def SubRing.record (k : SubRing) : Option (StagedXfer × ExecRec) :=
  match k.occupancy, k.staged with
  | .staged, some (.xfer x) => x.exec.map fun e => (x, e)
  | _, _ => none

theorem State.execOf_eq_record (s : State) (r : SubId) : s.execOf r = (s.sub r).record := by
  unfold State.execOf State.stagedOf SubRing.record
  cases (s.sub r).occupancy <;> rcases (s.sub r).staged with _ | _ | _ <;> rfl

/-- R44: the counts of a ring's execution record are within their maximum. -/
def SubRing.CountsBounded (k : SubRing) : Prop := ∀ xe ∈ k.record, xe.2.attempts ≤ 15 ∧ xe.2.losses ≤ 255

/-- R144: the counts of the completions of a posting queue are within their maximum. -/
def CplRing.CountsBounded (k : CplRing) : Prop := ∀ e ∈ k.queue, e.attempts ≤ 15 ∧ e.losses ≤ 255

theorem countsBounded_iff :
    CountsBounded s ↔ (∀ r, (s.sub r).CountsBounded) ∧ (∀ k, (s.cpl k).CountsBounded) ∧
      (∀ e ∈ s.health, e.failed ≤ 15) ∧ ∀ r, (s.rcv r).lost ≤ 65535 := by
  simp only [Safety.CountsBounded, SubRing.CountsBounded, CplRing.CountsBounded, State.execOf_eq_record]

theorem SubRing.CountsBounded.of_record_none {k : SubRing} (h : k.record = none) : k.CountsBounded := by
  simp [SubRing.CountsBounded, h]

theorem SubRing.record_of_occupancy {k : SubRing} (h : k.occupancy ≠ .staged) : k.record = none := by
  unfold SubRing.record
  split
  · contradiction
  · rfl

theorem SubRing.Adjusts.record {k k' : SubRing} (h : k.Adjusts k') : k'.record = k.record := by
  simp only [SubRing.record, h.occupancy, h.staged]

theorem Move.sub_counts (h : Move c s t) (hs : ∀ r, (s.sub r).CountsBounded) : ∀ r, (t.sub r).CountsBounded := by
  have idle : ∀ (r : SubId) (k : SubRing), k.occupancy ≠ .staged → ∀ q, ((s.setSub r k).sub q).CountsBounded :=
    fun r k hk => forall_sub_setSub hs r (.of_record_none (SubRing.record_of_occupancy hk))
  cases h with
  | setup => exact idle 0 _ nofun
  | targetFailure p st => rcases s.targetFailure_cases p st with ⟨_, h⟩ | h <;> rw [h] <;> exact hs
  | targetSuccess p st => obtain ⟨_, h⟩ := s.targetSuccess_frame p st; rw [h]; exact hs
  | handOver r d =>
    rcases s.handOver_cases r d with h | ⟨k, e, -, -, -, -, -, h⟩
    · rw [h]; exact hs
    · rw [h]; exact idle r _ nofun
  | setExec r x e e' he attempts losses =>
    refine forall_sub_setSub hs r fun xe hxe => ?_
    obtain ⟨-, -, ho, -⟩ := State.staged_of_execOf he
    have hbound := hs r (x, e) (by rw [← State.execOf_eq_record, he]; rfl)
    simp only [SubRing.record, ho, Option.map_some, Option.mem_some_iff] at hxe
    subst hxe
    exact ⟨attempts.elim (fun h => h ▸ hbound.1) id, losses.elim (fun h => h ▸ hbound.2) id⟩
  | stage r y fetch ap ho hf hy =>
    refine forall_sub_setSub hs r fun xe hxe => ?_
    cases y with
    | admin => cases hxe
    | xfer x =>
      obtain ⟨e, he, rfl⟩ := Option.map_eq_some_iff.1 hxe
      obtain ⟨ha, hl⟩ := hy x rfl e he
      simp [ha, hl]
  | sub r k hk => exact forall_sub_setSub hs r (by simpa only [SubRing.CountsBounded, hk.record] using hs r)
  | fetchStart r => exact idle r _ nofun
  | createSub r => exact idle r _ nofun
  | dropSub r => exact idle r _ nofun
  | written k e rest now y hq hy =>
    refine forall_sub_setSub (s := s.setCpl k _) hs e.ring (.of_record_none (SubRing.record_of_occupancy ?_))
    rcases hy with rfl | rfl <;> nofun
  | _ => exact hs

theorem Done.CountsFrom.bounded {d : Done} {r : SubId} (hd : d.CountsFrom s r) (hs : (s.sub r).CountsBounded) :
    d.attempts ≤ 15 ∧ d.losses ≤ 255 := by
  rcases hd with ⟨ha, hl⟩ | ⟨x, e, he, ha, hl⟩
  · simp [ha, hl]
  · rw [ha, hl]
    exact hs (x, e) (by rw [← State.execOf_eq_record, he]; rfl)

theorem Move.cpl_counts (h : Move c s t) (hsub : ∀ r, (s.sub r).CountsBounded) (hs : ∀ k, (s.cpl k).CountsBounded) :
    ∀ k, (t.cpl k).CountsBounded := by
  cases h with
  | setup => exact forall_cpl_setCpl (s := s.setSub 0 _) hs 0 nofun
  | targetFailure p st => rcases s.targetFailure_cases p st with ⟨_, h⟩ | h <;> rw [h] <;> exact hs
  | targetSuccess p st => obtain ⟨_, h⟩ := s.targetSuccess_frame p st; rw [h]; exact hs
  | handOver r d hd =>
    rcases s.handOver_cases r d with h | ⟨k, e, -, -, -, ha, hl, h⟩
    · rw [h]; exact hs
    · rw [h]
      refine forall_cpl_setCpl (s := s.setSub r _) hs k fun x hx => ?_
      rcases List.mem_append.1 hx with hx | hx
      · exact hs k x hx
      · rw [List.mem_singleton.1 hx, ha, hl]
        exact hd.bounded (hsub r)
  | fetchStart r k => exact forall_cpl_setCpl (s := s.setSub r _) hs k (hs k)
  | createCpl k => exact forall_cpl_setCpl hs k nofun
  | dropCpl k => exact forall_cpl_setCpl hs k nofun
  | ackCpl k => exact forall_cpl_setCpl hs k (hs k)
  | fireCpl k => exact forall_cpl_setCpl hs k (hs k)
  | writingCpl k => exact forall_cpl_setCpl hs k (hs k)
  | written k e rest now y hq =>
    exact forall_cpl_setCpl hs k fun x hx => hs k x (by rw [hq]; exact List.mem_cons_of_mem e hx)
  | ordered before => exact forall_cpl_inRingOrder hs before fun k n hk x hx => hk x ((k.inRingOrder_perm n).mem_iff.1 hx)
  | _ => exact hs

theorem State.targetFailure_failed {p : PortId} {st : Station} (hs : ∀ e ∈ s.health, e.failed ≤ 15) :
    ∀ e ∈ (s.targetFailure p st).health, e.failed ≤ 15 := by
  have append : ∀ (l : List HealthEntry) (e : HealthEntry), (∀ x ∈ l, x ∈ s.health) → e.failed ≤ 15 →
      ∀ x ∈ l ++ [e], x.failed ≤ 15 := by
    intro l e hl he x hx
    rcases List.mem_append.1 hx with hx | hx
    · exact hs x (hl x hx)
    · rwa [List.mem_singleton.1 hx]
  unfold State.targetFailure
  dsimp only
  split
  · exact append _ _ (fun x hx => (List.mem_filter.1 hx).1) (saturate_le Config.countCap _)
  · split_ifs
    · exact append _ _ (fun x hx => hx) (show 1 ≤ 15 by decide)
    · exact append _ _ (fun x hx => List.mem_of_mem_eraseP hx) (show 1 ≤ 15 by decide)
    · exact hs

theorem State.targetSuccess_failed {p : PortId} {st : Station} (hs : ∀ e ∈ s.health, e.failed ≤ 15) :
    ∀ e ∈ (s.targetSuccess p st).health, e.failed ≤ 15 := by
  unfold State.targetSuccess
  split
  · intro x hx
    rcases List.mem_append.1 hx with hx | hx
    · exact hs x (List.mem_filter.1 hx).1
    · rw [List.mem_singleton.1 hx]
      exact Nat.zero_le _
  · exact hs

theorem Move.failed_counts (h : Move c s t) (hs : ∀ e ∈ s.health, e.failed ≤ 15) : ∀ e ∈ t.health, e.failed ≤ 15 := by
  cases h with
  | targetFailure p st => exact State.targetFailure_failed hs
  | targetSuccess p st => exact State.targetSuccess_failed hs
  | forget keep => exact fun e he => hs e (List.mem_filter.1 he).1
  | handOver r d =>
    obtain ⟨-, -, -, -, -, -, h, -⟩ := s.handOver_keeps r d
    rw [h]
    exact hs
  | _ => exact hs

/-! ### Coalescing (R148 to R150) -/

theorem irqLawful_fire {q : Irq} (h : 1 ≤ q.threshold ∧ q.threshold ≤ 255) : IrqLawful q.fire :=
  ⟨h, fun _ => ⟨rfl, rfl⟩, nofun⟩

/-- R148: a ring just made is ARMED. -/
theorem irqLawful_made {v : VecId} {threshold delay : Nat} (h : 1 ≤ threshold ∧ threshold ≤ 255) :
    IrqLawful { Irq.reset with vector := v, threshold, delay } := ⟨h, fun _ => ⟨rfl, rfl⟩, nofun⟩

theorem irqLawful_reset : IrqLawful .reset := irqLawful_made (by decide)

theorem irqLawful_posted {q : Irq} (h : IrqLawful q) (now : Time) : IrqLawful (q.posted now).1 := by
  obtain ⟨ht, hquiet, hcounting⟩ := h
  unfold Irq.posted
  split
  · split
    · exact irqLawful_fire ht
    · refine ⟨ht, nofun, fun _ => ⟨le_rfl, ?_, ?_⟩⟩
      · show 1 < q.threshold
        omega
      · by_cases hd : q.delay = 0 <;> simp [hd]
  · rename_i hs
    obtain ⟨h1, h2, h3⟩ := hcounting hs
    split
    · exact irqLawful_fire ht
    · refine ⟨ht, fun hn => absurd hs hn, fun _ => ⟨Nat.le_succ_of_le h1, ?_, h3⟩⟩
      show q.count + 1 < q.threshold
      omega
  · exact ⟨ht, hquiet, hcounting⟩

theorem irqLawful_acked {q : Irq} (h : IrqLawful q) (left : Bool) : IrqLawful (q.acked left).1 := by
  obtain ⟨ht, hquiet, hcounting⟩ := h
  unfold Irq.acked
  split
  · exact ⟨ht, hquiet, hcounting⟩
  · exact ⟨ht, hquiet, hcounting⟩
  · exact ⟨ht, fun _ => ⟨rfl, rfl⟩, nofun⟩
  · exact ⟨ht, hquiet, hcounting⟩
  · rename_i hs
    exact ⟨ht, fun _ => hquiet (by rw [hs]; nofun), nofun⟩

/-- R173: the threshold of a setup block that passes its checks. -/
theorem SetupBlock.threshold_of_valid {b : SetupBlock} (h : b.valid = true) : 1 ≤ b.threshold ∧ b.threshold ≤ 255 := by
  simp only [SetupBlock.valid, Bool.and_eq_true, decide_eq_true_eq] at h
  exact ⟨h.1.2, h.2⟩

theorem Move.cpl_coalescing (h : Move c s t) (hs : ∀ k, IrqLawful (s.cpl k).irq) : ∀ k, IrqLawful (t.cpl k).irq := by
  cases h with
  | setup _ b hb =>
    exact forall_cpl_setCpl (s := s.setSub 0 _) (Q := fun k => IrqLawful k.irq) hs 0
      (irqLawful_made (SetupBlock.threshold_of_valid hb))
  | targetFailure p st => rcases s.targetFailure_cases p st with ⟨_, h⟩ | h <;> rw [h] <;> exact hs
  | targetSuccess p st => obtain ⟨_, h⟩ := s.targetSuccess_frame p st; rw [h]; exact hs
  | handOver r d hd =>
    rcases s.handOver_cases r d with h | ⟨k, e, -, -, -, -, -, h⟩
    · rw [h]; exact hs
    · rw [h]; exact forall_cpl_setCpl (s := s.setSub r _) (Q := fun k => IrqLawful k.irq) hs k (hs k)
  | fetchStart r k => exact forall_cpl_setCpl (s := s.setSub r _) (Q := fun k => IrqLawful k.irq) hs k (hs k)
  | createCpl k _ _ _ _ _ _ _ ht => exact forall_cpl_setCpl (Q := fun k => IrqLawful k.irq) hs k (irqLawful_made ht)
  | dropCpl k => exact forall_cpl_setCpl (Q := fun k => IrqLawful k.irq) hs k irqLawful_reset
  | ackCpl k i left => exact forall_cpl_setCpl (Q := fun k => IrqLawful k.irq) hs k (irqLawful_acked (hs k) left)
  | fireCpl k => exact forall_cpl_setCpl (Q := fun k => IrqLawful k.irq) hs k (irqLawful_fire (hs k).1)
  | writingCpl k => exact forall_cpl_setCpl (Q := fun k => IrqLawful k.irq) hs k (hs k)
  | written k e rest now => exact forall_cpl_setCpl (Q := fun k => IrqLawful k.irq) hs k (irqLawful_posted (hs k) now)
  | ordered before => exact forall_cpl_inRingOrder (Q := fun k => IrqLawful k.irq) hs before fun _ _ hk => hk
  | _ => exact hs

/-- R163, R165: what a receive ring's lost count and coalescing state keep. -/
def RcvRing.Lawful (k : RcvRing) : Prop := k.lost ≤ 65535 ∧ IrqLawful k.irq

theorem Move.rcv_lawful (h : Move c s t) (hs : ∀ r, (s.rcv r).Lawful) : ∀ r, (t.rcv r).Lawful := by
  cases h with
  | targetFailure p st => rcases s.targetFailure_cases p st with ⟨_, h⟩ | h <;> rw [h] <;> exact hs
  | targetSuccess p st => obtain ⟨_, h⟩ := s.targetSuccess_frame p st; rw [h]; exact hs
  | handOver r d hd =>
    rcases s.handOver_cases r d with h | ⟨k, e, -, -, -, -, -, h⟩ <;> rw [h] <;> exact hs
  | reserve r => exact forall_rcv_setRcv hs r (hs r)
  | unreserve r => exact forall_rcv_setRcv hs r (hs r)
  | handRecord r => exact forall_rcv_setRcv hs r (hs r)
  | enqueue r => exact forall_rcv_setRcv hs r (hs r)
  | countLost r => exact forall_rcv_setRcv hs r ⟨saturate_le Config.lostCap _, (hs r).2⟩
  | ackRcv r i left => exact forall_rcv_setRcv hs r ⟨(hs r).1, irqLawful_acked (hs r).2 left⟩
  | fireRcv r => exact forall_rcv_setRcv hs r ⟨(hs r).1, irqLawful_fire (hs r).2.1⟩
  | writingRcv r => exact forall_rcv_setRcv hs r ⟨Nat.zero_le _, (hs r).2⟩
  | writtenRcv r e rest now => exact forall_rcv_setRcv hs r ⟨(hs r).1, irqLawful_posted (hs r).2 now⟩
  | createRcv r _ _ _ _ _ _ _ ht => exact forall_rcv_setRcv hs r ⟨Nat.zero_le _, irqLawful_made ht⟩
  | closeRcv r => exact forall_rcv_setRcv hs r (hs r)
  | resetRcv r => exact forall_rcv_setRcv hs r ⟨Nat.zero_le _, irqLawful_reset⟩
  | _ => exact hs

theorem countsBounded_reset : CountsBounded State.reset := by
  refine countsBounded_iff.2 ⟨fun r => ?_, fun k => ?_, nofun, fun r => ?_⟩
  · rw [State.sub_reset]; exact .of_record_none rfl
  · rw [State.cpl_reset]; nofun
  · rw [State.rcv_reset]; exact Nat.zero_le _

theorem coalescingLawful_reset : CoalescingLawful State.reset := by
  refine ⟨fun k => ?_, fun r => ?_⟩
  · rw [State.cpl_reset]; exact irqLawful_reset
  · rw [State.rcv_reset]; exact irqLawful_reset

/-- Settles O55: a count is raised by `saturate` alone, and an interrupt state changes by a posted record, an ACK or the timer. -/
theorem countsAndCoalescingStayLawful : Obligations.CountsAndCoalescingStayLawful := by
  intro s t hcounts hcoalescing
  refine step_keeps (I := fun u => CountsBounded u ∧ CoalescingLawful u) (fun _ _ h => h)
    (fun _ _ => ⟨countsBounded_reset, coalescingLawful_reset⟩) ?_ ⟨hcounts, hcoalescing⟩
  rintro c s t hm ⟨hc, hcpl, hrcv⟩
  obtain ⟨hsub, hqueue, hfailed, hlost⟩ := countsBounded_iff.1 hc
  have hlawful := hm.rcv_lawful fun r => ⟨hlost r, hrcv r⟩
  exact ⟨countsBounded_iff.2 ⟨hm.sub_counts hsub, hm.cpl_counts hsub hqueue, hm.failed_counts hfailed,
    fun r => (hlawful r).1⟩, hm.cpl_coalescing hcpl, fun r => (hlawful r).2⟩

end Sys2Proof.Machine
end

section
/-!
PROOFS. The places of submission rings (O56) and the slots of receive rings (O57), with the ring arithmetic that they and the
completion credits (O58) need.
-/
namespace Sys2Proof.Machine
open Sys2Proof.Safety

variable {c : Instr} {s t : State} {size a b i : Nat} {base : Addr}

/-! ### Ring arithmetic (R125, R141, R142) -/

theorem ringDistance_eq (ha : a < size) (hb : b < size) :
    ringDistance size a b = if b ≤ a then a - b else a + size - b := by
  unfold ringDistance
  split_ifs with h
  · rw [show a + size - b = (a - b) + size by omega, Nat.add_mod_right]
    exact Nat.mod_eq_of_lt (by omega)
  · exact Nat.mod_eq_of_lt (by omega)

theorem nextSlot_eq (ha : a < size) : nextSlot size a = if a + 1 = size then 0 else a + 1 := by
  unfold nextSlot
  split_ifs with h
  · rw [h, Nat.mod_self]
  · exact Nat.mod_eq_of_lt (by omega)

theorem nextSlot_lt (ha : a < size) : nextSlot size a < size := Nat.mod_lt _ (by omega)

theorem ringDistance_self (ha : a < size) : ringDistance size a a = 0 := by simp [ringDistance_eq ha ha]

theorem ringDistance_nextSlot_le (ha : a < size) (hb : b < size) :
    ringDistance size (nextSlot size a) b ≤ ringDistance size a b + 1 := by
  rw [ringDistance_eq (nextSlot_lt ha) hb, ringDistance_eq ha hb, nextSlot_eq ha]
  split_ifs <;> omega

/-- R146: a consumer index that does not pass the tail leaves no more records unconsumed. -/
theorem ringDistance_le_of_not_passesTail (ha : a < size) (hb : b < size) (hi : i < size)
    (h : passesTail size a b i = false) : ringDistance size a i ≤ ringDistance size a b := by
  have hle : ringDistance size i b ≤ ringDistance size a b := by simpa [passesTail] using h
  rw [ringDistance_eq hi hb, ringDistance_eq ha hb] at hle
  rw [ringDistance_eq ha hi, ringDistance_eq ha hb]
  split_ifs at hle ⊢ <;> omega

theorem legalSize_pos (h : legalSize size = true) : 0 < size := by
  obtain ⟨k, -, -, rfl⟩ := legalSize_iff.1 h
  exact Nat.two_pow_pos k

/-- R136, R154, R166: a ring that has just been made has its indices at 0. -/
theorem placed_of_legalRing (h : legalRing size base = true) : Placed base size 0 0 := by
  obtain ⟨hsize, hbase⟩ := Bool.and_eq_true_iff.1 h
  exact ⟨by simpa [alignedTo] using hbase, hsize, legalSize_pos hsize, legalSize_pos hsize⟩

/-- R173: the two rings of a setup block that passes its checks. -/
theorem SetupBlock.rings_of_valid {x : SetupBlock} (h : x.valid = true) :
    legalRing x.adminSize x.adminBase = true ∧ legalRing x.completionSize x.completionBase = true := by
  simp only [SetupBlock.valid, Bool.and_eq_true] at h
  exact h.1.1.1

/-! ### The places of submission rings (R121, R122) -/

/-- R121, R122: a submission ring that is not ABSENT has its indices inside its slots. -/
def SubRing.InPlace (k : SubRing) : Prop := k.state ≠ .absent → Placed k.base k.size k.producer k.fetch

theorem SubRing.Adjusts.inPlace {k k' : SubRing} (h : k.Adjusts k') (hk : k.InPlace) : k'.InPlace := by
  intro hstate
  obtain ⟨hbase, hsize, hproducer, hfetch⟩ := hk (mt h.absent.2 hstate)
  rw [h.base, h.size]
  refine ⟨hbase, hsize, ?_, ?_⟩
  · rcases h.producer with hp | hp | hp
    · rwa [hp]
    · rwa [hp]
    · exact hp
  · rcases h.fetch with hf | hf
    · rwa [hf]
    · rw [hf]
      exact nextSlot_lt hfetch

theorem subRing_inPlace_reset : SubRing.InPlace .reset := fun h => absurd rfl h

theorem Move.subs_inPlace (h : Move c s t) (hs : ∀ r, (s.sub r).InPlace) : ∀ r, (t.sub r).InPlace := by
  cases h with
  | setup _ b hb => exact forall_sub_setSub hs 0 fun _ => placed_of_legalRing (SetupBlock.rings_of_valid hb).1
  | targetFailure p st => rcases s.targetFailure_cases p st with ⟨_, h⟩ | h <;> rw [h] <;> exact hs
  | targetSuccess p st => obtain ⟨_, h⟩ := s.targetSuccess_frame p st; rw [h]; exact hs
  | handOver r d =>
    rcases s.handOver_cases r d with h | ⟨k, e, -, -, -, -, -, h⟩
    · rw [h]; exact hs
    · rw [h]; exact forall_sub_setSub hs r (hs r)
  | setExec r => exact forall_sub_setSub hs r (hs r)
  | stage r y fetch _ _ hf =>
    refine forall_sub_setSub hs r fun hstate => ?_
    obtain ⟨hbase, hsize, hproducer, hfetch⟩ := hs r hstate
    refine ⟨hbase, hsize, hproducer, ?_⟩
    rcases hf with rfl | rfl
    exacts [hfetch, nextSlot_lt hfetch]
  | sub r k hk => exact forall_sub_setSub hs r (hk.inPlace (hs r))
  | fetchStart r => exact forall_sub_setSub hs r (hs r)
  | createSub r _ _ _ _ _ _ hl => exact forall_sub_setSub hs r fun _ => placed_of_legalRing hl
  | dropSub r => exact forall_sub_setSub hs r subRing_inPlace_reset
  | written k e rest now y hq hy =>
    refine forall_sub_setSub (s := s.setCpl k _) hs e.ring ?_
    rcases hy with rfl | rfl
    exacts [subRing_inPlace_reset, hs e.ring]
  | _ => exact hs

/-- Settles O56: an index is moved to the next slot, to another index of the ring, or to one that was checked. -/
theorem submissionRingsStayPlaced : Obligations.SubmissionRingsStayPlaced :=
  fun _ _ hs => step_keeps (I := SubmissionRingsPlaced) (fun _ _ h => h)
    (fun a pending r => by
      rw [show State.sub { State.reset with setupAddress := a, pending } r = .reset from State.sub_reset r]
      exact subRing_inPlace_reset)
    (fun hm h => hm.subs_inPlace h) hs

/-! ### The slots of receive rings (R157, R158) -/

/-- R157, R158: an ACTIVE receive ring has room for its unconsumed records and the slots that it has promised. -/
def RcvRing.Covered (k : RcvRing) : Prop :=
  k.state = .active →
    Placed k.base k.size k.tail k.consumer ∧ ringDistance k.size k.tail k.consumer + (k.held + k.queue.length) ≤ k.size - 1

theorem rcvRing_free_of_granted {k : RcvRing} (h : k.answer = .granted) :
    ringDistance k.size k.tail k.consumer + (k.held + k.queue.length) + 1 ≤ k.size - 1 := by
  unfold RcvRing.answer at h
  split_ifs at h with _ hfree
  simp only [RcvRing.free, RcvRing.unconsumed, RcvRing.reserved] at hfree
  omega

theorem rcvRing_covered_of_absent {k : RcvRing} (h : k.state ≠ .active) : k.Covered := fun hactive => absurd hactive h

theorem rcvRing_covered_of_le {k k' : RcvRing} (hk : k.Covered) (hstate : k'.state = k.state) (hbase : k'.base = k.base)
    (hsize : k'.size = k.size) (htail : k'.tail = k.tail) (hconsumer : k'.consumer = k.consumer)
    (hle : k'.held + k'.queue.length ≤ k.held + k.queue.length) : k'.Covered := by
  intro hactive
  obtain ⟨hplaced, hroom⟩ := hk (hstate ▸ hactive)
  rw [hbase, hsize, htail, hconsumer]
  exact ⟨hplaced, by omega⟩

theorem rcvRing_covered_ack {k : RcvRing} (hk : k.Covered) (q : Irq) (hi : i < k.size)
    (hp : passesTail k.size k.tail k.consumer i = false) : RcvRing.Covered { k with consumer := i, irq := q } := by
  intro hactive
  obtain ⟨⟨hbase, hsize, htail, hconsumer⟩, hroom⟩ := hk hactive
  have hle := ringDistance_le_of_not_passesTail htail hconsumer hi hp
  exact ⟨⟨hbase, hsize, htail, hi⟩, by show ringDistance k.size k.tail i + (k.held + k.queue.length) ≤ k.size - 1; omega⟩

theorem rcvRing_covered_written {k : RcvRing} (hk : k.Covered) {e : RcvEntry} {rest : List RcvEntry}
    (hq : k.queue = e :: rest) (w : Option DmaWrite) (phase : Bool) (q : Irq) :
    RcvRing.Covered
      { k with queue := rest, writing := w, tail := nextSlot k.size k.tail, phase, irq := q } := by
  intro hactive
  obtain ⟨⟨hbase, hsize, htail, hconsumer⟩, hroom⟩ := hk hactive
  have hle := ringDistance_nextSlot_le htail hconsumer
  have hlength : k.queue.length = rest.length + 1 := by simp [hq]
  refine ⟨⟨hbase, hsize, nextSlot_lt htail, hconsumer⟩, ?_⟩
  show ringDistance k.size (nextSlot k.size k.tail) k.consumer + (k.held + rest.length) ≤ k.size - 1
  omega

theorem Move.rcvs_covered (h : Move c s t) (hs : ∀ r, (s.rcv r).Covered) : ∀ r, (t.rcv r).Covered := by
  cases h with
  | targetFailure p st => rcases s.targetFailure_cases p st with ⟨_, h⟩ | h <;> rw [h] <;> exact hs
  | targetSuccess p st => obtain ⟨_, h⟩ := s.targetSuccess_frame p st; rw [h]; exact hs
  | handOver r d hd => rcases s.handOver_cases r d with h | ⟨k, e, -, -, -, -, -, h⟩ <;> rw [h] <;> exact hs
  | reserve r hg =>
    refine forall_rcv_setRcv hs r fun hactive => ⟨(hs r hactive).1, ?_⟩
    have hroom := rcvRing_free_of_granted hg
    show ringDistance (s.rcv r).size (s.rcv r).tail (s.rcv r).consumer +
      ((s.rcv r).held + 1 + (s.rcv r).queue.length) ≤ (s.rcv r).size - 1
    omega
  | unreserve r =>
    exact forall_rcv_setRcv hs r (rcvRing_covered_of_le (hs r) rfl rfl rfl rfl rfl (Nat.add_le_add_right (Nat.sub_le _ _) _))
  | handRecord r e hheld =>
    refine forall_rcv_setRcv hs r (rcvRing_covered_of_le (hs r) rfl rfl rfl rfl rfl ?_)
    simp only [List.length_append, List.length_singleton]
    omega
  | enqueue r e hg =>
    refine forall_rcv_setRcv hs r fun hactive => ⟨(hs r hactive).1, ?_⟩
    have hroom := rcvRing_free_of_granted hg
    simp only [List.length_append, List.length_singleton]
    omega
  | countLost r => exact forall_rcv_setRcv hs r (hs r)
  | ackRcv r i left hi hp => exact forall_rcv_setRcv hs r (rcvRing_covered_ack (hs r) _ hi hp)
  | fireRcv r => exact forall_rcv_setRcv hs r (hs r)
  | writingRcv r => exact forall_rcv_setRcv hs r (hs r)
  | writtenRcv r e rest now hq => exact forall_rcv_setRcv hs r (rcvRing_covered_written (hs r) hq _ _ _)
  | createRcv r base size _ _ _ _ hl =>
    have hplaced := placed_of_legalRing hl
    refine forall_rcv_setRcv hs r fun _ => ⟨hplaced, ?_⟩
    show ringDistance size 0 0 + 0 ≤ _
    rw [ringDistance_self hplaced.2.2.1]
    exact Nat.zero_le _
  | closeRcv r =>
    exact forall_rcv_setRcv hs r (rcvRing_covered_of_le (hs r) rfl rfl rfl rfl rfl (Nat.add_le_add_right (Nat.zero_le _) _))
  | resetRcv r => exact forall_rcv_setRcv hs r (rcvRing_covered_of_absent nofun)
  | _ => exact hs

/-- Settles O57: a slot is promised only where the claim was GRANTED, a record that is written takes a promised slot, and an ACK
does not pass the tail. -/
theorem receiveSlotsStayCovered : Obligations.ReceiveSlotsStayCovered :=
  fun _ _ hs => step_keeps (I := ReceiveSlotsCovered) (fun _ _ h => h)
    (fun a pending r => by
      rw [show State.rcv { State.reset with setupAddress := a, pending } r = .reset from State.rcv_reset r]
      exact rcvRing_covered_of_absent nofun)
    (fun hm h => hm.rcvs_covered h) hs

end Sys2Proof.Machine
end

section
/-!
PROOFS. The completion credits (O58): what one submission ring claims of a completion ring, and what a move of a submission
ring, of a completion ring, or of a ring together with the completion ring that it names keeps.
-/
namespace Sys2Proof.Machine
open Sys2Proof.Safety

variable {c : Instr} {s t : State} {r : SubId} {k : CplId} {y : SubRing} {z : CplRing}

/-! ### The number of claims (R123, R142) -/

/-- R123: a submission ring has reserved a credit of a completion ring. -/
def SubRing.claimsOn (k : SubRing) (c : CplId) : Bool := k.completion == some c && k.occupancy != .empty

theorem SubRing.claimsOn_iff {y : SubRing} : y.claimsOn k = true ↔ y.completion = some k ∧ y.occupancy ≠ .empty := by
  simp [SubRing.claimsOn]

/-- A count over a list without repetitions, of a property that changes at one element only. -/
theorem countP_add_of_differ {α : Type} {l : List α} {p q : α → Bool} {a : α} (hl : l.Nodup) (ha : a ∈ l)
    (h : ∀ x, x ≠ a → p x = q x) : l.countP p + (q a).toNat = l.countP q + (p a).toNat := by
  induction l with
  | nil => cases ha
  | cons x xs ih =>
    obtain ⟨hx, hxs⟩ := List.nodup_cons.1 hl
    rw [List.countP_cons, List.countP_cons]
    rcases List.mem_cons.1 ha with rfl | ha
    · have hrest : xs.countP p = xs.countP q :=
        List.countP_congr fun x hmem => by rw [h x (ne_of_mem_of_not_mem hmem hx)]
      rw [hrest]
      cases p a <;> cases q a <;> simp
    · have := ih hxs ha
      rw [h x (ne_of_mem_of_not_mem ha hx).symm]
      omega

theorem claims_eq (s : State) (c : CplId) : claims s c = (List.finRange 32).countP fun q => (s.sub q).claimsOn c := rfl

theorem claims_setSub (s : State) (r : SubId) (y : SubRing) (c : CplId) :
    claims (s.setSub r y) c + ((s.sub r).claimsOn c).toNat = claims s c + (y.claimsOn c).toNat := by
  have h := countP_add_of_differ (p := fun q => ((s.setSub r y).sub q).claimsOn c) (q := fun q => (s.sub q).claimsOn c)
    (List.nodup_finRange 32) (List.mem_finRange r) fun x hx => by rw [State.setSub_sub_ne _ _ _ _ hx]
  rw [State.setSub_sub_self] at h
  exact h

theorem claims_eq_zero (h : ∀ q, (s.sub q).claimsOn k = false) : claims s k = 0 := by
  simp [claims_eq, h]

/-! ### The parts of the invariant -/

/-- R142, R143: an ACTIVE completion ring covers its unconsumed records and its credits, of which there are `n`. -/
def CplRing.Covers (z : CplRing) (n : Nat) : Prop :=
  z.state = .active →
    Placed z.base z.size z.tail z.consumer ∧ z.reserved = n ∧
      ringDistance z.size z.tail z.consumer + z.reserved ≤ z.size - 1

/-- R134: the rings of the entries of a posting queue. -/
def CplRing.waiting (z : CplRing) : List SubId := z.queue.map (·.ring)

/-- The invariant, a submission ring or a completion ring at a time. -/
structure Credits (s : State) : Prop where
  /-- R135: a ring that is not EMPTY exists, in an engine that has been enabled. -/
  occupied : ∀ r, (s.sub r).occupancy ≠ .empty → (s.sub r).state ≠ .absent ∧ s.engine ≠ .disabled ∧ s.engine ≠ .starting
  /-- R123: it names an ACTIVE completion ring. -/
  named : ∀ r, (s.sub r).occupancy ≠ .empty → ∃ c, (s.sub r).completion = some c ∧ (s.cpl c).state = .active
  nodup : ∀ c, (s.cpl c).waiting.Nodup
  completing : ∀ c r, r ∈ (s.cpl c).waiting ↔ (s.sub r).occupancy = .completing ∧ (s.sub r).completion = some c
  covers : ∀ c, (s.cpl c).Covers (claims s c)

theorem creditsCovered_iff : CreditsCovered s ↔ Credits s := by
  constructor
  · rintro ⟨hnamed, hactive, hqueue, hcovers⟩
    refine ⟨fun r hr => ?_, fun r hr => ?_, fun c => (hqueue c).1, fun c => (hqueue c).2, hcovers⟩
    · obtain ⟨hstate, hdisabled, hstarting, -⟩ := hnamed r hr
      exact ⟨hstate, hdisabled, hstarting⟩
    · obtain ⟨-, -, -, hsome⟩ := hnamed r hr
      obtain ⟨c, hc⟩ := Option.ne_none_iff_exists'.1 hsome
      exact ⟨c, hc, hactive r hr c hc⟩
  · rintro ⟨hoccupied, hnamed, hnodup, hcompleting, hcovers⟩
    refine ⟨fun r hr => ?_, fun r hr c hc => ?_, fun c => ⟨hnodup c, hcompleting c⟩, hcovers⟩
    · obtain ⟨hstate, hdisabled, hstarting⟩ := hoccupied r hr
      obtain ⟨c, hc, -⟩ := hnamed r hr
      exact ⟨hstate, hdisabled, hstarting, by simp [hc]⟩
    · obtain ⟨c', hc', hactive⟩ := hnamed r hr
      cases hc'.symm.trans hc
      exact hactive

theorem Credits.not_claimsOn_of_not_active (h : Credits s) (hk : (s.cpl k).state ≠ .active) (q : SubId) :
    (s.sub q).claimsOn k = false := by
  rw [Bool.eq_false_iff]
  intro hq
  obtain ⟨hc, ho⟩ := SubRing.claimsOn_iff.1 hq
  obtain ⟨c, hc', hactive⟩ := h.named q ho
  cases hc'.symm.trans hc
  exact hk hactive

/-- R169, R173: before the engine has been enabled every ring is EMPTY. -/
theorem Credits.empty_of_engine (h : Credits s) (he : s.engine = .disabled ∨ s.engine = .starting) (q : SubId) :
    (s.sub q).occupancy = .empty := by
  by_contra hq
  obtain ⟨-, hdisabled, hstarting⟩ := h.occupied q hq
  exact he.elim hdisabled hstarting

/-- The invariant speaks of the rings, and of the engine only where a ring has work. -/
theorem Credits.of_rings (h : Credits s) (hsub : t.subs = s.subs) (hcpl : t.cpls = s.cpls)
    (he : (∀ r, (s.sub r).occupancy = .empty) ∨
      (s.engine ≠ .disabled ∧ s.engine ≠ .starting → t.engine ≠ .disabled ∧ t.engine ≠ .starting)) : Credits t := by
  have hs : ∀ r, t.sub r = s.sub r := fun r => by simp [State.sub, hsub]
  have hc : ∀ c, t.cpl c = s.cpl c := fun r => by simp [State.cpl, hcpl]
  have hclaims : ∀ c, claims t c = claims s c := fun c => by simp [claims_eq, hs]
  refine ⟨fun r hr => ?_, ?_, ?_, ?_, ?_⟩
  · rw [hs] at hr ⊢
    obtain ⟨hstate, hengine⟩ := h.occupied r hr
    rcases he with he | he
    · exact absurd (he r) hr
    · exact ⟨hstate, he hengine⟩
  · simpa only [hs, hc] using h.named
  · simpa only [hc] using h.nodup
  · simpa only [hs, hc] using h.completing
  · simpa only [hc, hclaims] using h.covers

/-! ### One submission ring is written -/

/-- R123: a submission ring that claims what it claimed: another that is EMPTY, or one that keeps its completion ring. -/
structure SubRing.SameClaim (x y : SubRing) : Prop where
  empty : y.occupancy = .empty ↔ x.occupancy = .empty
  completing : y.occupancy = .completing ↔ x.occupancy = .completing
  completion : x.occupancy ≠ .empty → y.completion = x.completion
  exists_ : x.occupancy ≠ .empty → x.state ≠ .absent → y.state ≠ .absent

theorem SubRing.SameClaim.of_empty {x y : SubRing} (hx : x.occupancy = .empty) (hy : y.occupancy = .empty) :
    x.SameClaim y := ⟨by simp [hx, hy], by simp [hx, hy], fun h => absurd hx h, fun h => absurd hx h⟩

theorem SubRing.SameClaim.claimsOn {x y : SubRing} (h : x.SameClaim y) (c : CplId) : y.claimsOn c = x.claimsOn c := by
  rw [Bool.eq_iff_iff, SubRing.claimsOn_iff, SubRing.claimsOn_iff, ne_eq, ne_eq, h.empty]
  exact and_congr_left fun hx => by rw [h.completion hx]

theorem Credits.setSub (h : Credits s) (hy : (s.sub r).SameClaim y) : Credits (s.setSub r y) := by
  have claims' : ∀ c, claims (s.setSub r y) c = claims s c := fun c => by
    have := claims_setSub s r y c
    rw [hy.claimsOn] at this
    omega
  refine ⟨?_, ?_, h.nodup, ?_, fun c => by rw [claims']; exact h.covers c⟩
  · refine forall_sub_setSub (P := fun x => x.occupancy ≠ .empty → x.state ≠ .absent ∧ _) h.occupied r fun ho => ?_
    have hr := mt hy.empty.2 ho
    exact ⟨hy.exists_ hr (h.occupied r hr).1, (h.occupied r hr).2⟩
  · refine forall_sub_setSub (P := fun x => x.occupancy ≠ .empty → ∃ c, x.completion = some c ∧ (s.cpl c).state = .active)
      h.named r fun ho => ?_
    have hr := mt hy.empty.2 ho
    rw [hy.completion hr]
    exact h.named r hr
  · intro c q
    show q ∈ (s.cpl c).waiting ↔ _
    rw [h.completing c q, State.setSub_sub_eq]
    split
    · subst q
      rw [hy.completing]
      exact and_congr_right fun ho => by rw [hy.completion (by rw [ho]; nofun)]
    · rfl

/-! ### One completion ring is written -/

/-- A completion ring that keeps its posting queue's rings, and covers what its credits stand for. -/
theorem Credits.setCpl (h : Credits s) (hstate : (s.cpl k).state = .active → z.state = .active)
    (hqueue : z.waiting.Perm (s.cpl k).waiting) (hcovers : z.Covers (claims s k)) : Credits (s.setCpl k z) := by
  refine ⟨h.occupied, fun r hr => ?_, fun c => ?_, fun c r => ?_, fun c => ?_⟩
  · obtain ⟨c, hc, hactive⟩ := h.named r hr
    refine ⟨c, hc, ?_⟩
    rw [State.setCpl_cpl_eq]
    split
    · subst c
      exact hstate hactive
    · exact hactive
  · rw [State.setCpl_cpl_eq]
    split
    · exact hqueue.nodup_iff.2 (h.nodup k)
    · exact h.nodup c
  · show _ ↔ (s.sub r).occupancy = .completing ∧ (s.sub r).completion = some c
    rw [← h.completing, State.setCpl_cpl_eq]
    split
    · subst c
      exact hqueue.mem_iff
    · rfl
  · show CplRing.Covers _ (claims s c)
    rw [State.setCpl_cpl_eq]
    split
    · subst c
      exact hcovers
    · exact h.covers c

/-- A completion ring that no submission ring claims, made or taken away. -/
theorem Credits.setCpl_unclaimed (h : Credits s) (hk : ∀ q, (s.sub q).claimsOn k = false) (hqueue : z.queue = [])
    (hcovers : z.Covers 0) : Credits (s.setCpl k z) := by
  have hwaiting : (s.cpl k).waiting = [] := List.eq_nil_iff_forall_not_mem.2 fun q hq => by
    obtain ⟨ho, hc⟩ := (h.completing k q).1 hq
    have := hk q
    rw [Bool.eq_false_iff] at this
    exact this (SubRing.claimsOn_iff.2 ⟨hc, by rw [ho]; nofun⟩)
  refine ⟨h.occupied, fun r hr => ?_, fun c => ?_, fun c r => ?_, fun c => ?_⟩
  · obtain ⟨c, hc, hactive⟩ := h.named r hr
    refine ⟨c, hc, ?_⟩
    have hne : c ≠ k := by
      rintro rfl
      exact Bool.eq_false_iff.1 (hk r) (SubRing.claimsOn_iff.2 ⟨hc, hr⟩)
    rwa [State.setCpl_cpl_ne _ _ _ _ hne]
  · rw [State.setCpl_cpl_eq]
    split
    · simp [CplRing.waiting, hqueue]
    · exact h.nodup c
  · show _ ↔ (s.sub r).occupancy = .completing ∧ (s.sub r).completion = some c
    rw [← h.completing, State.setCpl_cpl_eq]
    split
    · subst c
      rw [hwaiting]
      simp [CplRing.waiting, hqueue]
    · rfl
  · show CplRing.Covers _ (claims s c)
    rw [State.setCpl_cpl_eq]
    split
    · subst c
      rwa [claims_eq_zero hk]
    · exact h.covers c

/-! ### A submission ring is written together with the completion ring that it names -/

/-- What becomes of a submission ring and of the completion ring that it names when a credit is reserved, a completion is handed
over, or a record is written. -/
structure Exchange (x y : SubRing) (r : SubId) (k : CplId) (z z' : CplRing) : Prop where
  state : z'.state = z.state
  absent : x.state ≠ .absent → y.occupancy ≠ .empty → y.state ≠ .absent
  completion : y.occupancy ≠ .empty → y.completion = some k
  nodup : z.waiting.Nodup → (r ∈ z.waiting ↔ x.occupancy = .completing) → z'.waiting.Nodup
  waiting : z.waiting.Nodup → (r ∈ z.waiting ↔ x.occupancy = .completing) →
    ∀ q, q ∈ z'.waiting ↔ if q = r then y.occupancy = .completing else q ∈ z.waiting
  covers : ∀ n m, z.Covers n → m + (x.occupancy != .empty).toNat = n + (y.occupancy != .empty).toNat → z'.Covers m

theorem Credits.exchange (h : Credits s) (hk : (s.sub r).completion = some k) (hx : Exchange (s.sub r) y r k (s.cpl k) z)
    (he : y.occupancy ≠ .empty →
      (s.sub r).state ≠ .absent ∧ s.engine ≠ .disabled ∧ s.engine ≠ .starting ∧ (s.cpl k).state = .active) :
    Credits ((s.setSub r y).setCpl k z) := by
  have hr : r ∈ (s.cpl k).waiting ↔ (s.sub r).occupancy = .completing := by simp [h.completing, hk]
  refine ⟨?_, fun q => ?_, fun c => ?_, fun c q => ?_, fun c => ?_⟩
  · refine forall_sub_setSub (P := fun x => x.occupancy ≠ .empty → x.state ≠ .absent ∧ _) h.occupied r fun ho => ?_
    obtain ⟨hstate, hdisabled, hstarting, -⟩ := he ho
    exact ⟨hx.absent hstate ho, hdisabled, hstarting⟩
  · have hactive : ∀ c, (s.cpl c).state = .active → ((s.setCpl k z).cpl c).state = .active := fun c hc => by
      rw [State.setCpl_cpl_eq]
      split
      · subst c
        rwa [hx.state]
      · exact hc
    show ((s.setSub r y).sub q).occupancy ≠ .empty → ∃ c, ((s.setSub r y).sub q).completion = some c ∧
      ((s.setCpl k z).cpl c).state = .active
    rw [State.setSub_sub_eq]
    split
    · intro ho
      obtain ⟨-, -, -, hk⟩ := he ho
      exact ⟨k, hx.completion ho, hactive k hk⟩
    · intro ho
      obtain ⟨c, hc, ha⟩ := h.named q ho
      exact ⟨c, hc, hactive c ha⟩
  · show ((s.setCpl k z).cpl c).waiting.Nodup
    rw [State.setCpl_cpl_eq]
    split
    · exact hx.nodup (h.nodup k) hr
    · exact h.nodup c
  · show q ∈ ((s.setCpl k z).cpl c).waiting ↔
      ((s.setSub r y).sub q).occupancy = .completing ∧ ((s.setSub r y).sub q).completion = some c
    rw [State.setCpl_cpl_eq, State.setSub_sub_eq]
    split
    · subst c
      rw [hx.waiting (h.nodup k) hr q]
      split
      · exact ⟨fun ho => ⟨ho, hx.completion (by rw [ho]; nofun)⟩, And.left⟩
      · exact h.completing k q
    · rename_i hc
      rw [h.completing c q]
      split
      · subst q
        rw [hk]
        refine ⟨fun ho => absurd (Option.some.inj ho.2).symm hc, fun ho => ?_⟩
        rw [hx.completion (by rw [ho.1]; nofun)] at ho
        exact absurd (Option.some.inj ho.2).symm hc
      · rfl
  · have hclaims := claims_setSub s r y c
    show ((s.setCpl k z).cpl c).Covers (claims (s.setSub r y) c)
    rw [State.setCpl_cpl_eq]
    split
    · subst c
      refine hx.covers _ _ (h.covers k) ?_
      simp only [SubRing.claimsOn, hk, beq_self_eq_true, Bool.true_and] at hclaims
      rw [hclaims]
      by_cases ho : y.occupancy = .empty
      · simp [ho]
      · simp [hx.completion ho]
    · rename_i hc
      have hx' : (s.sub r).claimsOn c = false := by
        rw [Bool.eq_false_iff, ne_eq, SubRing.claimsOn_iff, hk]
        exact fun ho => hc (Option.some.inj ho.1).symm
      have hy' : y.claimsOn c = false := by
        rw [Bool.eq_false_iff, ne_eq, SubRing.claimsOn_iff]
        exact fun ho => hc (Option.some.inj ((hx.completion ho.2).symm.trans ho.1)).symm
      rw [hx', hy'] at hclaims
      rw [Nat.add_right_cancel hclaims]
      exact h.covers c

/-- R126: a fetch reserves a free credit. -/
theorem exchange_of_fetch {x : SubRing} (ho : x.occupancy = .empty) (hk : x.completion = some k) (hfree : 0 < z.free)
    (reading : Option FetchRead) :
    Exchange x { x with occupancy := .fetching, reading } r k z { z with reserved := z.reserved + 1 } := by
  refine ⟨rfl, fun h _ => h, fun _ => hk, fun h _ => h, fun _ hr q => ?_, fun n m hz hm hactive => ?_⟩
  · show q ∈ z.waiting ↔ _
    split
    · subst q
      simp [hr, ho]
    · rfl
  · obtain ⟨hplaced, hreserved, hroom⟩ := hz hactive
    simp only [CplRing.free, CplRing.unconsumed] at hfree
    have hm' : m + 0 = n + 1 := by rw [ho] at hm; exact hm
    refine ⟨hplaced, by show z.reserved + 1 = m; omega, ?_⟩
    show ringDistance z.size z.tail z.consumer + (z.reserved + 1) ≤ z.size - 1
    omega

/-- R134: a completion that is handed over joins the posting queue with the credit of its ring. -/
theorem exchange_of_handOver {x : SubRing} {e : CplEntry} (ho : x.occupancy = .fetching ∨ x.occupancy = .staged)
    (hk : x.completion = some k) (he : e.ring = r) :
    Exchange x (completing x) r k z { z with queue := z.queue ++ [e] } := by
  have hne : x.occupancy ≠ .empty ∧ x.occupancy ≠ .completing := by rcases ho with ho | ho <;> rw [ho] <;> decide
  have hwaiting : CplRing.waiting { z with queue := z.queue ++ [e] } = z.waiting ++ [r] := by simp [CplRing.waiting, he]
  refine ⟨rfl, fun h _ => h, fun _ => hk, fun h hr => ?_, fun _ hr q => ?_, fun n m hz hm => ?_⟩
  · rw [hwaiting, List.nodup_append]
    refine ⟨h, by simp, fun a ha b hb => ?_⟩
    rintro rfl
    rw [List.mem_singleton] at hb
    subst a
    exact hne.2 (hr.1 ha)
  · rw [hwaiting, List.mem_append, List.mem_singleton]
    split
    · simp [completing, *]
    · simp [*]
  · have hx : (x.occupancy != .empty) = true := by simpa using hne.1
    have hm' : m = n := by rw [hx] at hm; exact Nat.add_right_cancel hm
    exact hm' ▸ hz

/-- R143: a record that has been written takes a slot, and frees the credit of its ring. -/
theorem exchange_of_written {x : SubRing} {e : CplEntry} {rest : List CplEntry} (ho : x.occupancy = .completing)
    (hy : y.occupancy = .empty) (hq : z.queue = e :: rest) (he : e.ring = r) (w : Option DmaWrite) (phase : Bool) (q : Irq) :
    Exchange x y r k z
      { z with queue := rest, writing := w, reserved := z.reserved - 1, tail := nextSlot z.size z.tail, phase, irq := q } := by
  have hwaiting : z.waiting = r :: rest.map (·.ring) := by simp [CplRing.waiting, hq, he]
  refine ⟨rfl, fun _ h => absurd hy h, fun h => absurd hy h, fun h _ => ?_, fun h _ i => ?_, fun n m hz hm hactive => ?_⟩
  · rw [hwaiting] at h
    exact (List.nodup_cons.1 h).2
  · rw [hwaiting] at h ⊢
    show i ∈ rest.map (·.ring) ↔ _
    split
    · subst i
      simp only [hy, reduceCtorEq, iff_false]
      exact (List.nodup_cons.1 h).1
    · rename_i hi
      rw [List.mem_cons, or_iff_right hi]
  · obtain ⟨⟨hbase, hsize, htail, hconsumer⟩, hreserved, hroom⟩ := hz hactive
    have hm' : m + 1 = n + 0 := by rw [ho, hy] at hm; exact hm
    have hle := ringDistance_nextSlot_le htail hconsumer
    refine ⟨⟨hbase, hsize, nextSlot_lt htail, hconsumer⟩, by show z.reserved - 1 = m; omega, ?_⟩
    show ringDistance z.size (nextSlot z.size z.tail) z.consumer + (z.reserved - 1) ≤ z.size - 1
    omega

/-! ### The moves -/

theorem cplRing_covers_made {base : Addr} {size : Nat} (h : legalRing size base = true) (v : VecId) (threshold delay : Nat) :
    (CplRing.made base size v threshold delay).Covers 0 := by
  have hplaced := placed_of_legalRing h
  refine fun _ => ⟨hplaced, rfl, ?_⟩
  show ringDistance size 0 0 + 0 ≤ _
  rw [ringDistance_self hplaced.2.2.1]
  exact Nat.zero_le _

theorem Credits.setCpl_same (h : Credits s) (hstate : z.state = (s.cpl k).state) (hqueue : z.queue = (s.cpl k).queue)
    (hcovers : (s.cpl k).Covers (claims s k) → z.Covers (claims s k)) : Credits (s.setCpl k z) :=
  h.setCpl (fun hactive => hstate.trans hactive) (by rw [CplRing.waiting, hqueue]; exact .refl _) (hcovers (h.covers k))

theorem cplRing_covers_ack {n i : Nat} (hz : z.Covers n) (q : Irq) (hi : i < z.size)
    (hp : passesTail z.size z.tail z.consumer i = false) : CplRing.Covers { z with consumer := i, irq := q } n := by
  intro hactive
  obtain ⟨⟨hbase, hsize, htail, hconsumer⟩, hreserved, hroom⟩ := hz hactive
  have hle := ringDistance_le_of_not_passesTail htail hconsumer hi hp
  refine ⟨⟨hbase, hsize, htail, hi⟩, hreserved, ?_⟩
  show ringDistance z.size z.tail i + z.reserved ≤ z.size - 1
  omega

theorem Credits.inRingOrder (h : Credits s) (before : State) : Credits (s.inRingOrder before) := by
  have hperm : ∀ c, ((s.inRingOrder before).cpl c).waiting.Perm (s.cpl c).waiting := fun c => by
    rw [State.inRingOrder_cpl]
    exact (CplRing.inRingOrder_perm _ _).map _
  have hclaims : ∀ c, claims (s.inRingOrder before) c = claims s c := fun _ => rfl
  refine ⟨fun r => ?_, fun r hr => ?_, fun c => (hperm c).nodup_iff.2 (h.nodup c), fun c r => ?_, fun c => ?_⟩
  · rw [State.inRingOrder_sub, State.inRingOrder_engine]
    exact h.occupied r
  · rw [State.inRingOrder_sub] at hr ⊢
    obtain ⟨c, hc, hactive⟩ := h.named r hr
    exact ⟨c, hc, by rw [State.inRingOrder_cpl]; exact hactive⟩
  · rw [State.inRingOrder_sub]
    exact (hperm c).mem_iff.trans (h.completing c r)
  · rw [State.inRingOrder_cpl, hclaims]
    exact h.covers c

theorem Move.credits (h : Move c s t) (hs : Credits s) : Credits t := by
  cases h with
  | engine _ e he =>
    refine hs.of_rings rfl rfl (.inr fun _ => ?_)
    rcases he with rfl | rfl | rfl <;> exact ⟨nofun, nofun⟩
  | starting he => exact hs.of_rings rfl rfl (.inl (hs.empty_of_engine (.inl he)))
  | failed => exact hs.of_rings rfl rfl (.inr fun _ => ⟨nofun, nofun⟩)
  | setup he b hb =>
    have hempty := hs.empty_of_engine (.inr he)
    have hsub := hs.setSub (r := 0)
      (y := { SubRing.reset with
        state := .active, base := b.adminBase, size := b.adminSize, completion := some 0 })
      (.of_empty (hempty 0) rfl)
    have hnone : ∀ q, ((s.setSub 0 { SubRing.reset with
        state := .active, base := b.adminBase, size := b.adminSize, completion := some 0 }).sub q).occupancy = .empty :=
      forall_sub_setSub (P := fun x => x.occupancy = .empty) hempty 0 rfl
    have hcpl := hsub.setCpl_unclaimed (k := 0) (fun q => by simp [SubRing.claimsOn, hnone q]) rfl
      (cplRing_covers_made (SetupBlock.rings_of_valid hb).2 (Fin.ofNat 16 b.vector) b.threshold b.delay)
    exact hcpl.of_rings rfl rfl (.inl hnone)
  | targetFailure p st =>
    rcases s.targetFailure_cases p st with ⟨_, h⟩ | h <;> rw [h] <;> exact hs.of_rings rfl rfl (.inr id)
  | targetSuccess p st => obtain ⟨_, h⟩ := s.targetSuccess_frame p st; rw [h]; exact hs.of_rings rfl rfl (.inr id)
  | handOver r d =>
    rcases s.handOver_cases r d with h | ⟨k, e, hk, ho, he, -, -, h⟩
    · rwa [h]
    · rw [h]
      have hne : (s.sub r).occupancy ≠ .empty := by rcases ho with ho | ho <;> rw [ho] <;> nofun
      obtain ⟨hstate, hdisabled, hstarting⟩ := hs.occupied r hne
      obtain ⟨k', hk', hactive⟩ := hs.named r hne
      cases hk.symm.trans hk'
      exact hs.exchange hk (exchange_of_handOver ho hk he) fun _ => ⟨hstate, hdisabled, hstarting, hactive⟩
  | setExec r => exact hs.setSub ⟨.rfl, .rfl, fun _ => rfl, fun _ => id⟩
  | stage r y fetch _ ho => exact hs.setSub ⟨by simp [ho], by simp [ho], fun _ => rfl, fun _ => id⟩
  | sub r k hk =>
    exact hs.setSub ⟨by rw [hk.occupancy], by rw [hk.occupancy], fun _ => hk.completion, fun _ => mt hk.absent.1⟩
  | fetchStart r k hk h =>
    simp only [State.mayFetch, Bool.and_eq_true, beq_iff_eq, decide_eq_true_eq] at h
    obtain ⟨⟨⟨⟨⟨hstate, ho⟩, -⟩, hrunning⟩, hactive⟩, hfree⟩ := h
    refine hs.exchange hk (exchange_of_fetch ho hk hfree _) fun _ => ⟨?_, ?_, ?_, hactive⟩
    · rw [hstate]; nofun
    · rw [hrunning]; nofun
    · rw [hrunning]; nofun
  | createSub r _ _ _ _ _ h =>
    refine hs.setSub (.of_empty ?_ rfl)
    by_contra ho
    exact (hs.occupied r ho).1 h
  | dropSub r ho => exact hs.setSub (.of_empty ho rfl)
  | createCpl k _ _ _ _ _ h hl =>
    exact hs.setCpl_unclaimed (hs.not_claimsOn_of_not_active (by rw [h]; nofun)) rfl (cplRing_covers_made hl _ _ _)
  | dropCpl k h =>
    refine hs.setCpl_unclaimed (fun q => ?_) rfl nofun
    rw [Bool.eq_false_iff, ne_eq, SubRing.claimsOn_iff]
    rintro ⟨hk, ho⟩
    have hstate := (hs.occupied q ho).1
    have hq := List.any_eq_false.1 h q (List.mem_finRange q)
    simp [hk, hstate] at hq
  | ackCpl k i left hi hp => exact hs.setCpl_same rfl rfl fun hz => cplRing_covers_ack hz _ hi hp
  | fireCpl k => exact hs.setCpl_same rfl rfl id
  | writingCpl k => exact hs.setCpl_same rfl rfl id
  | written k e rest now y hq hy =>
    obtain ⟨ho, hk⟩ := (hs.completing k e.ring).1 (by simp [CplRing.waiting, hq])
    have hy : y.occupancy = .empty := by rcases hy with rfl | rfl <;> rfl
    exact hs.exchange (k := k) hk (exchange_of_written ho hy hq rfl _ _ _) fun h => absurd hy h
  | ordered before => exact hs.inRingOrder before
  | _ => exact hs.of_rings rfl rfl (.inr id)

theorem credits_reset : Credits State.reset := by
  have hclaims : ∀ k, claims State.reset k = 0 := fun k => claims_eq_zero fun q => by rw [State.sub_reset]; rfl
  refine ⟨fun r hr => absurd (by rw [State.sub_reset]; rfl) hr, fun r hr => absurd (by rw [State.sub_reset]; rfl) hr,
    fun k => ?_, fun k r => ?_, fun k => ?_⟩
  · rw [State.cpl_reset]; exact .nil
  · rw [State.cpl_reset, State.sub_reset]
    exact ⟨nofun, nofun⟩
  · rw [State.cpl_reset]; nofun

/-- Settles O58: a credit is reserved with the fetch of its ring, passes to the entry of the posting queue, and is freed with the
record that is written. -/
theorem completionCreditsStayCovered : Obligations.CompletionCreditsStayCovered :=
  fun _ _ hs h => creditsCovered_iff.2 <| step_keeps (I := Credits) (fun _ _ h => h.of_rings rfl rfl (.inr id))
    (fun _ _ => credits_reset.of_rings rfl rfl (.inr id)) Move.credits (creditsCovered_iff.1 hs) h

end Sys2Proof.Machine
end

section
/-!
PROOFS. The failure cause (O12, its second half), the shape of every port (O59), why one attempt per port is not an invariant
by itself (O60), and that the reset state meets each invariant (O53).
-/
namespace Sys2Proof.Machine
open Sys2Proof.Safety

variable {c : Instr} {s t : State}

/-! ### The failure cause (R169) -/

theorem Move.cause (h : Move c s t) (hs : CauseMatches s) : CauseMatches t := by
  cases h with
  | engine h e he =>
    have hworks : s.engine ≠ .failed := by rcases State.live_iff.1 h with h | h | h <;> rw [h] <;> nofun
    have hne : e ≠ .failed := by rcases he with rfl | rfl | rfl <;> nofun
    exact iff_of_true (hs.2 hworks) hne
  | starting h => exact iff_of_true (hs.2 (by rw [h]; nofun)) nofun
  | failed cause h => exact iff_of_false h (fun hne => hne rfl)
  | setup h => exact iff_of_true (hs.2 (by rw [h]; nofun)) nofun
  | handOver r d =>
    obtain ⟨hengine, hcause, -⟩ := s.handOver_keeps r d
    rw [CauseMatches, hengine, hcause]
    exact hs
  | targetFailure p st => rcases s.targetFailure_cases p st with ⟨_, h⟩ | h <;> rw [h] <;> exact hs
  | targetSuccess p st => obtain ⟨_, h⟩ := s.targetSuccess_frame p st; rw [h]; exact hs
  | _ => exact hs

theorem step_causeMatches (hs : CauseMatches s) (h : step s = .next t) : CauseMatches t :=
  step_keeps (I := CauseMatches) (fun _ _ h => h) (fun _ _ => iff_of_true rfl nofun) Move.cause hs h

/-! ### The shape of every port (R23, R31, R110) -/

/-- R42: a port that drives on when the engine fails. -/
theorem Port.drivesOn_iff {x : Port} : x.drivesOn = true ↔ DrivesOn x := by
  unfold Port.drivesOn DrivesOn
  cases x.state <;> cases x.frame <;> simp

theorem Port.becomes_leave {x : Port} : x.Becomes x.leave := by
  unfold Port.leave
  split
  · rename_i h
    obtain ⟨hs, -⟩ := Port.drivesOn_iff.1 h
    refine ⟨rfl, fun hx => ⟨hx.1, iff_of_false nofun ?_⟩⟩
    show x.state ≠ .holding
    rcases hs with hs | hs | hs <;> rw [hs] <;> nofun
  · exact Port.becomes_goOff

theorem portsShaped_setPort (hs : PortsShaped s) {p : PortId} {y : Port} (hy : PortShape y) :
    PortsShaped (s.setPort p y) := by
  intro q
  rw [State.setPort_port_eq]
  split
  · exact hy
  · exact hs q

theorem Move.shapes (h : Move c s t) (hs : PortsShaped s) : PortsShaped t := by
  cases h with
  | port p y hy => exact portsShaped_setPort hs (hy.shape (hs p))
  | ports g hg =>
    intro p
    rw [State.map_port]
    exact (hg _).shape (hs p)
  | config _ p => exact portsShaped_setPort hs (hs p)
  | failed cause =>
    intro p
    rw [State.fail_port]
    exact Port.becomes_leave.shape (hs p)
  | handOver r d =>
    obtain ⟨-, -, h, -⟩ := s.handOver_keeps r d
    intro p
    rw [State.port_of_ports h]
    exact hs p
  | targetFailure q st =>
    rcases s.targetFailure_cases q st with ⟨_, h⟩ | h
    · rw [h]; exact hs
    · rw [h]; exact portsShaped_setPort hs (hs q)
  | targetSuccess q st => obtain ⟨_, h⟩ := s.targetSuccess_frame q st; rw [h]; exact hs
  | _ => exact hs

theorem portShape_reset : PortShape .reset := portShape_of_no_frame (.inl rfl) rfl ⟨rfl, rfl⟩ rfl

theorem portsShaped_reset : PortsShaped State.reset := fun p => by rw [State.port_reset]; exact portShape_reset

/-- Settles O59: each row takes a port to a state with the frame record, role and drivers of that state, and a window waits only
where the port goes to HOLDING. -/
theorem portsStayShaped : Obligations.PortsStayShaped :=
  fun _ _ hs => step_keeps (I := PortsShaped) (fun _ _ h => h) (fun _ _ => portsShaped_reset) Move.shapes hs

/-! ### One attempt per port (R25, R51) -/

/-- A descriptor to station 5. -/
def sendTo5 : Desc :=
  { tag := 0, kind := .send, probe := false, decline := false, dest := 5, channel := 0, outLength := 0,
    replyCapacity := 0, attemptLimit := 0, deadline := 0, token := 0, outBuffer := 0, replyBuffer := 0 }

/-- Ring 1 has a descriptor IN_ATTEMPT at port 0. -/
def attemptingRing : SubRing :=
  { SubRing.reset with
    state := .active, size := 8, port := some 0, completion := some 0, occupancy := .staged,
    staged := some (.xfer { desc := sendTo5, payload := [], time := 0, exec := some (newRecord .inAttempt 0) }) }

/-- An INITIATING port, with the frame of ring 1, whose answer window waits: no port with this window is INITIATING by
R110, but `OneAttempt` and `OccupiedRingsNamed` do not speak of windows. -/
def initiatingWithQuery : Port :=
  { Port.reset with
    state := .initiating, frame := some (initiatorFrame 1 0),
    window := .waiting { token := 0, source := 0, channel := 0, length := 0, entry := 0, ring := 0 } .empty 0 }

/-- The counterexample of O60: that port and that ring, and the answer limit passes. -/
def attemptBesideQuery : State :=
  { (State.reset.setPort 0 initiatingWithQuery).setSub 1 attemptingRing with
    engine := .running, pending := [.answerLimitExpiry 0] }

theorem attemptBesideQuery_sub (r : SubId) :
    attemptBesideQuery.sub r = if r = 1 then attemptingRing else .reset := by
  show (State.setSub _ 1 attemptingRing).sub r = _
  rw [State.setSub_sub_eq, State.setPort_sub, State.sub_reset]

theorem oneAttempt_attemptBesideQuery : OneAttempt attemptBesideQuery := by
  intro p r _ h
  obtain ⟨hport, -⟩ := Bool.and_eq_true_iff.1 h
  rw [attemptBesideQuery_sub] at hport
  split at hport
  · subst r
    obtain rfl : (0 : PortId) = p := Option.some.inj (eq_of_beq hport)
    exact ⟨.inr rfl, rfl⟩
  · cases hport

theorem occupiedRingsNamed_attemptBesideQuery : OccupiedRingsNamed attemptBesideQuery := by
  intro r ho
  rw [attemptBesideQuery_sub] at ho ⊢
  split at ho
  · rw [if_pos ‹r = 1›]
    exact ⟨nofun, nofun, nofun, nofun⟩
  · exact absurd rfl ho

/-- The step ends the hold of the query and takes port 0 to SERVING, with ring 1 still IN_ATTEMPT. -/
theorem step_attemptBesideQuery : ∃ t, step attemptBesideQuery = .next t ∧ t.live = true ∧
    t.inState 0 1 .inAttempt = true ∧ (t.port 0).state = .serving := ⟨_, rfl, by decide +kernel⟩

/-- Refutes O60: from a state with a WAITING window at an INITIATING port, which `PortsShaped` excludes and the hypotheses of
O60 do not, the passing of the answer limit takes the port to SERVING while its descriptor is IN_ATTEMPT. -/
theorem not_oneAttemptPerPort : ¬ Obligations.OneAttemptPerPort := by
  intro h
  obtain ⟨t, ht, hlive, hattempt, hserving⟩ := step_attemptBesideQuery
  obtain ⟨hone, -⟩ := h _ _ oneAttempt_attemptBesideQuery occupiedRingsNamed_attemptBesideQuery ht
  obtain ⟨hstate, -⟩ := hone 0 1 hlive hattempt
  rw [hserving] at hstate
  rcases hstate with hstate | hstate <;> cases hstate

/-! ### The reset state (R182) -/

/-- Settles O53: every ring is ABSENT and EMPTY, every port OFF, the health table empty and the cause NONE. -/
theorem resetMeetsInvariants : Obligations.ResetMeetsInvariants := by
  refine ⟨iff_of_true rfl nofun, ⟨Nat.zero_le _, .nil, nofun⟩, countsBounded_reset, fun r => ?_, fun r => ?_,
    creditsCovered_iff.2 credits_reset, coalescingLawful_reset, portsShaped_reset, nofun⟩
  · rw [State.sub_reset]; exact subRing_inPlace_reset
  · rw [State.rcv_reset]; exact rcvRing_covered_of_absent nofun

end Sys2Proof.Machine
end

section
/-!
PROOFS. Engine control and the register window: the step (O1), the resets (O3), ACK (O8), the accesses (O9) and the end of the
setup read (O10).
-/
namespace Sys2Proof.Machine
open Sys2Proof.Safety

variable {s : State} {w : Word32} {i : Nat}

/-! ### The step and the resets -/

/-- Settles O1: the two cases of `step`. -/
theorem stepRunsFrontCommand : Obligations.StepRunsFrontCommand := by
  refine ⟨fun c rest s h => ?_, fun s h => ?_⟩
  · simp only [step, h]
  · unfold step
    split
    · cases h.symm.trans ‹_›
    · rfl

theorem State.snapshot_reset (p : PortId) : State.reset.snapshot p = none := by simp [State.snapshot, State.reset]
theorem State.position_reset (p : PortId) (q : Fin 8) : State.reset.position p q = 0 := by
  simp [State.position, State.reset]
theorem State.vector_reset (v : VecId) : State.reset.vector v = .reset := by simp [State.vector, State.reset]
theorem State.entry_reset (i : MatchId) : State.reset.entry i = .reset := by simp [State.entry, State.reset]
theorem State.reply_reset (i : SlotId) : State.reset.reply i = .reset := by simp [State.reply, State.reset]

/-- Settles O3: the resets are defined by the reset state, whose parts are all alike. -/
theorem resetsRestoreStatedValues : Obligations.ResetsRestoreStatedValues := by
  refine ⟨fun s => ⟨rfl, ?resets⟩, ⟨rfl, rfl, rfl, rfl, rfl, rfl⟩, fun p => ?port, fun r => ?sub, fun c => ?cpl, fun r => ?rcv,
    State.vector_reset, fun i => ?entry, State.reply_reset, rfl⟩
  case resets => rintro c (rfl | rfl | rfl) <;> rfl
  case port =>
    simp only [State.port_reset]
    exact ⟨rfl, rfl, rfl, rfl, rfl, rfl, rfl, rfl, by decide, rfl, rfl, rfl, rfl, rfl, rfl, rfl, State.snapshot_reset p,
      State.position_reset p⟩
  case sub =>
    simp only [State.sub_reset]
    exact ⟨rfl, rfl, rfl, rfl, rfl, rfl, rfl, rfl, rfl, rfl, rfl⟩
  case cpl =>
    simp only [State.cpl_reset]
    exact ⟨rfl, rfl, rfl, rfl, rfl, rfl, rfl, rfl, rfl, rfl, rfl, rfl, rfl, rfl⟩
  case rcv =>
    simp only [State.rcv_reset]
    exact ⟨rfl, rfl, rfl, rfl, rfl, rfl, rfl, rfl, rfl, rfl, rfl, rfl, rfl, rfl, rfl, rfl, rfl⟩
  case entry =>
    simp only [State.entry_reset]
    exact ⟨rfl, rfl, rfl, rfl, rfl, rfl, rfl, rfl⟩

/-! ### ACK (R146 to R150, R165) -/

/-- The fields of the written word (11.1). -/
theorem ackIndex_eq : ackIndex w = w.toNat / 65536 % 4096 := by
  simp only [ackIndex, BitVec.extractLsb'_toNat, Nat.shiftRight_eq_div_pow]

theorem ackRing_of_lt {c : CplId} (h : w.toNat < 2 ^ 31) (hc : c.val = w.toNat % 16) : ackRing w = .completion c := by
  have hbit : w.getLsbD 31 = false := by simpa [BitVec.getLsbD] using Nat.testBit_lt_two_pow h
  have hring : (w.extractLsb' 0 4).toFin = c := Fin.ext (by simpa using hc.symm)
  unfold ackRing
  rw [hbit, hring]
  rfl

theorem ackRing_of_le {r : RcvId} (h : 2 ^ 31 ≤ w.toNat) (hr : r.val = w.toNat % 16) : ackRing w = .receive r := by
  have hbit : w.getLsbD 31 = true := by
    rw [BitVec.getLsbD, Nat.testBit_eq_decide_div_mod_eq, decide_eq_true_eq]
    have := w.isLt
    omega
  have hring : (w.extractLsb' 0 4).toFin = r := Fin.ext (by simpa using hr.symm)
  unfold ackRing
  rw [hbit, hring]
  rfl

theorem ackTaken_iff {state : RingState} {size tail consumer : Nat} :
    ackTaken s state size tail consumer i = true ↔ ¬ ackRejectedFor s state size tail consumer i := by
  cases state <;> simp [ackTaken, ackRejectedFor, passesTail, and_assoc]

/-- R148, R150: an ACK that leaves the interrupt state as it is, with or without a message. -/
theorem acked_left {q : Irq} : q.acked true = (q, decide (q.state = .sent)) := by
  unfold Irq.acked
  cases q.state <;> rfl

theorem acked_armed {q : Irq} {left : Bool} (h : q.state = .armed) : q.acked left = (q, false) := by
  simp [Irq.acked, h]

theorem acked_counting {q : Irq} (h : q.state = .counting) :
    q.acked false = ({ q with state := .armed, count := 0, timer := none }, false) := by simp [Irq.acked, h]

theorem acked_sent {q : Irq} (h : q.state = .sent) : q.acked false = ({ q with state := .armed }, false) := by
  simp [Irq.acked, h]

/-- R146 to R150: what an ACK leads to, where `set` writes the consumer index and the interrupt state of the ring. -/
theorem ack_cases {taken : Bool} {left : Prop} [Decidable left] {rejected : Prop} {q : Irq}
    {set : Irq → State} {t : State} (htaken : taken = true ↔ ¬ rejected)
    (ht : t = if taken then (set (q.acked left).1).sendIf (q.acked left).2 q.vector
      else { s with notes := { s.notes with ackRejected := true } }) :
    (rejected → t = { s with notes := { s.notes with ackRejected := true } }) ∧
    (¬ rejected →
      (left → q.state ≠ .sent → t = set q) ∧ (left → q.state = .sent → t = (set q).sendMessage q.vector) ∧
      (¬ left → q.state = .armed → t = set q) ∧
      (¬ left → q.state = .counting → t = set { q with state := .armed, count := 0, timer := none }) ∧
      (¬ left → q.state = .sent → t = set { q with state := .armed })) := by
  refine ⟨fun h => ?_, fun h => ?_⟩
  · rw [ht, if_neg (mt htaken.1 (not_not.2 h))]
  · rw [if_pos (htaken.2 h)] at ht
    refine ⟨fun hl hs => ?_, fun hl hs => ?_, fun hl hs => ?_, fun hl hs => ?_, fun hl hs => ?_⟩
    · rw [ht, decide_eq_true hl, acked_left, decide_eq_false hs]; rfl
    · rw [ht, decide_eq_true hl, acked_left, decide_eq_true hs]; rfl
    · rw [ht, acked_armed hs]; rfl
    · rw [ht, decide_eq_false hl, acked_counting hs]; rfl
    · rw [ht, decide_eq_false hl, acked_sent hs]; rfl

/-- Settles O8: the same course for both kinds of ring. -/
theorem ackTakenOrRejected : Obligations.AckTakenOrRejected := by
  intro w s i hi
  have hindex : ackIndex w = i := ackIndex_eq.trans hi.symm
  refine ⟨fun c hw hc => ?_, fun r hw hr => ?_⟩
  · dsimp only
    have hexec : exec (.ack w) s = execAck w s := rfl
    rw [hexec, execAck, ackRing_of_lt hw hc, hindex]
    simp only [Host.Outcome.next.injEq]
    exact ack_cases (set := fun q => s.setCpl c { s.cpl c with consumer := i, irq := q }) ackTaken_iff rfl
  · dsimp only
    have hexec : exec (.ack w) s = execAck w s := rfl
    rw [hexec, execAck, ackRing_of_le hw hr, hindex]
    simp only [Host.Outcome.next.injEq]
    exact ack_cases (set := fun q => s.setRcv r { s.rcv r with consumer := i, irq := q }) ackTaken_iff rfl

/-! ### The register window (R184, 11.1) -/

section
variable (word : Fin 8) (enables : BitVec 4) (value : Word32)

theorem registerCommand_ignored (h : enables ≠ 0xF ∨ word = 0 ∨ word = 1 ∨ word = 7) :
    registerCommand word enables value = .ignoredRegisterWrite word enables value := by
  unfold registerCommand
  split_ifs with he
  · rfl
  · rcases h with h | rfl | rfl | rfl
    · exact absurd h he
    · rfl
    · rfl
    · rfl

theorem code_eq : (value.extractLsb' 0 4).toNat = value.toNat % 16 := by
  simp [BitVec.extractLsb'_toNat]

theorem extractLsb'_code : value.extractLsb' 0 4 = BitVec.ofNat 4 (value.toNat % 16) :=
  BitVec.eq_of_toNat_eq (by simp [BitVec.extractLsb'_toNat])

theorem extractLsb'_selection : value.extractLsb' 8 3 = BitVec.ofNat 3 (value.toNat / 256 % 8) :=
  BitVec.eq_of_toNat_eq (by simp [BitVec.extractLsb'_toNat, Nat.shiftRight_eq_div_pow])

/-- R171: the command of a full write of ENGINE, by its code. -/
def engineCommand : Instr :=
  match value.toNat % 16 with
  | 1 => .enable
  | 2 => .halt
  | 3 => .resume
  | 4 => .clearNotes (BitVec.ofNat 3 (value.toNat / 256 % 8))
  | 5 => .softReset
  | n => .unknownEngineCommand (BitVec.ofNat 4 n)

theorem registerCommand_engine : registerCommand 2 0xF value = engineCommand value := by
  show (match (value.extractLsb' 0 4).toNat with
    | 1 => Instr.enable | 2 => .halt | 3 => .resume | 4 => .clearNotes (value.extractLsb' 8 3) | 5 => .softReset
    | _ => .unknownEngineCommand (value.extractLsb' 0 4)) = _
  rw [code_eq, extractLsb'_code, extractLsb'_selection, engineCommand]
  split <;> rfl

theorem engineCommand_unknown (h : value.toNat % 16 = 0 ∨ 6 ≤ value.toNat % 16) :
    engineCommand value = .unknownEngineCommand (BitVec.ofNat 4 (value.toNat % 16)) := by
  unfold engineCommand
  split
  case h_6 => rfl
  all_goals omega

theorem engineCommand_wellFormed : (engineCommand value).wellFormed = true := by
  by_cases h : value.toNat % 16 = 0 ∨ 6 ≤ value.toNat % 16
  · have hcode : (BitVec.ofNat 4 (value.toNat % 16)).toNat = value.toNat % 16 := by simp
    rw [engineCommand_unknown value h]
    simp only [Instr.wellFormed, isEngineCommandCode, hcode, Bool.not_eq_true', Bool.and_eq_false_iff, decide_eq_false_iff_not]
    omega
  · unfold engineCommand
    split
    case h_6 h1 h2 h3 h4 h5 => exact absurd (by grind) h
    all_goals rfl

theorem registerCommand_wellFormed : (registerCommand word enables value).wellFormed = true := by
  by_cases h : enables ≠ 0xF ∨ word = 0 ∨ word = 1 ∨ word = 7
  · rw [registerCommand_ignored word enables value h]
    simpa [Instr.wellFormed, isIgnoredWrite, or_assoc] using h
  · obtain ⟨rfl, hword⟩ : enables = 0xF ∧ (word = 2 ∨ word = 3 ∨ word = 4 ∨ word = 5 ∨ word = 6) := by
      push Not at h
      refine ⟨h.1, ?_⟩
      omega
    rcases hword with rfl | rfl | rfl | rfl | rfl
    · rw [registerCommand_engine]
      exact engineCommand_wellFormed value
    · rfl
    · rfl
    · rfl
    · rfl

end

/-- 11.1: the engine word, as the number that it holds. -/
theorem engineWord_toNat (s : State) : s.engineWord.toNat =
    s.engine.code + 16 * s.cause.code + 256 * s.notes.postRejected.toNat + 512 * s.notes.ackRejected.toNat +
      1024 * s.notes.cmdRejected.toNat := by
  have hengine : s.engine.code < 6 := by cases s.engine <;> decide
  have hcause : s.cause.code < 7 := by cases s.cause <;> decide
  have hpost := Bool.toNat_lt s.notes.postRejected
  have hack := Bool.toNat_lt s.notes.ackRejected
  have hcmd := Bool.toNat_lt s.notes.cmdRejected
  rw [State.engineWord, BitVec.toNat_ofNat]
  exact Nat.mod_eq_of_lt (by omega)

theorem toNat_eq_iff_testBit {b : Bool} {n i : Nat} (h : n / 2 ^ i % 2 = b.toNat) : Nat.testBit n i = b := by
  rw [Nat.testBit_eq_decide_div_mod_eq, h]
  cases b <;> rfl

theorem engineWord_fields (s : State) :
    (s.engineWord.extractLsb' 0 3).toNat = s.engine.code ∧ (s.engineWord.extractLsb' 4 3).toNat = s.cause.code ∧
    s.engineWord.getLsbD 8 = s.notes.postRejected ∧ s.engineWord.getLsbD 9 = s.notes.ackRejected ∧
    s.engineWord.getLsbD 10 = s.notes.cmdRejected ∧ s.engineWord.getLsbD 3 = false ∧ s.engineWord.getLsbD 7 = false ∧
    s.engineWord.extractLsb' 11 21 = 0 := by
  have hengine : s.engine.code < 6 := by cases s.engine <;> decide
  have hcause : s.cause.code < 7 := by cases s.cause <;> decide
  have hpost := Bool.toNat_lt s.notes.postRejected
  have hack := Bool.toNat_lt s.notes.ackRejected
  have hcmd := Bool.toNat_lt s.notes.cmdRejected
  have hword := engineWord_toNat s
  refine ⟨?_, ?_, toNat_eq_iff_testBit ?_, toNat_eq_iff_testBit ?_, toNat_eq_iff_testBit ?_,
    toNat_eq_iff_testBit (b := false) ?_, toNat_eq_iff_testBit (b := false) ?_, BitVec.eq_of_toNat_eq ?_⟩
  · rw [BitVec.extractLsb'_toNat, hword, Nat.shiftRight_eq_div_pow]; omega
  · rw [BitVec.extractLsb'_toNat, hword, Nat.shiftRight_eq_div_pow]; omega
  · rw [hword]; omega
  · rw [hword]; omega
  · rw [hword]; omega
  · rw [hword, Bool.toNat_false]; omega
  · rw [hword, Bool.toNat_false]; omega
  · rw [BitVec.extractLsb'_toNat, hword, Nat.shiftRight_eq_div_pow]
    show _ = 0
    omega

theorem readBytes_one (s : State) (word : Fin 8) {i : Nat} (h : i < 4) :
    s.readBytes word i 1 = [(s.readWord word).extractLsb' (8 * i) 8] := by
  unfold State.readBytes leBytes
  interval_cases i <;> rfl

/-- Settles O9: the commands of the window, and its words as numbers. -/
theorem registerWindowAccesses : Obligations.RegisterWindowAccesses := by
  intro s
  obtain ⟨hengine, hcause, hpost, hack, hcmd, hbit3, hbit7, hhigh⟩ := engineWord_fields s
  refine ⟨fun _ _ _ _ => rfl, fun word enables value => ⟨rfl, registerCommand_wellFormed word enables value,
    registerCommand_ignored word enables value⟩, fun value => ?_, rfl, rfl, hengine, hcause, hpost, hack, hcmd, hbit3, hbit7,
    hhigh, ?_, ?_, rfl, rfl, rfl, fun word i hi => readBytes_one s word hi⟩
  · dsimp only
    rw [registerCommand_engine]
    refine ⟨fun h => ?_, fun h => ?_, fun h => ?_, fun h => ?_, fun h => ?_, engineCommand_unknown value, rfl, rfl, rfl, rfl⟩
    all_goals simp only [engineCommand, h]
  · exact BitVec.eq_of_toNat_eq (by simp [State.readWord, BitVec.extractLsb'_toNat])
  · exact BitVec.eq_of_toNat_eq (by simp [State.readWord, BitVec.extractLsb'_toNat])

/-! ### The end of the setup read (R173) -/

theorem SetupBlock.valid_iff {b : SetupBlock} :
    b.valid = true ↔ RingPlace b.adminSize b.adminBase ∧ RingPlace b.completionSize b.completionBase ∧ b.vector ≤ 15 ∧
      1 ≤ b.threshold ∧ b.threshold ≤ 255 := by
  simp only [SetupBlock.valid, Bool.and_eq_true, decide_eq_true_eq, legalRing_iff, and_assoc]

theorem fitTo_of_length {n : Nat} {bytes : List Byte} (h : bytes.length = n) : fitTo n bytes = bytes := by
  simp [fitTo, ← h]

/-- Settles O10: by the engine state, then by whether the read faulted, then by the checks of the block. -/
theorem setupReadEndStartsEngine : Obligations.SetupReadEndStartsEngine := by
  intro s read a
  have hexec : exec (.setupReadEnd read) s = execSetupReadEnd read s := rfl
  rw [hexec]
  refine ⟨fun he ha hr => ?_, fun bytes he ha hr hlength => ?_, fun he => ?_⟩
  · subst hr
    simp [execSetupReadEnd, he, ha]
  · subst hr
    dsimp only
    unfold execSetupReadEnd
    rw [if_pos ⟨he, by simp [ha]⟩]
    dsimp only
    rw [fitTo_of_length hlength]
    refine ⟨fun hadmin hcompletion hvector hlow hhigh v hv => ?_, fun h => ?_⟩
    · rw [if_pos (SetupBlock.valid_iff.2 ⟨hadmin, hcompletion, hvector, hlow, hhigh⟩), ← hv, Fin.ofNat_val_eq_self]
      rfl
    · rw [if_neg (mt SetupBlock.valid_iff.1 h)]
  · simp [execSetupReadEnd, he]

end Sys2Proof.Machine
end

section
/-!
PROOFS. A fetch and its ends: the credit (O13), the slot read and the payload read (O14), staging with the first consideration
(O15).
-/
namespace Sys2Proof.Machine
open Sys2Proof.Safety

variable {s : State} {r : SubId} {c : CplId} {d : Desc} {p : PortId} {bytes payload : List Byte}

/-! ### The start of a fetch (R126, R127) -/

theorem mayFetch_iff : s.mayFetch r c = true ↔
    (s.sub r).state = .active ∧ (s.sub r).occupancy = .empty ∧ (s.sub r).producer ≠ (s.sub r).fetch ∧
      s.engine = .running ∧ (s.cpl c).state = .active ∧
      (s.cpl c).unconsumed + (s.cpl c).reserved < (s.cpl c).size - 1 := by
  have hfree : 0 < (s.cpl c).free ↔ (s.cpl c).unconsumed + (s.cpl c).reserved < (s.cpl c).size - 1 := by
    unfold CplRing.free
    omega
  simp only [State.mayFetch, Bool.and_eq_true, beq_iff_eq, bne_iff_ne, decide_eq_true_eq, and_assoc, hfree]

/-- Settles O13: the conditions are those of the row. -/
theorem fetchStartReservesCredit : Obligations.FetchStartReservesCredit := by
  intro s r c hc
  have hexec : exec (.fetchStart r) s = execFetchStart r s := rfl
  dsimp only
  rw [hexec, execFetchStart]
  simp only [hc]
  refine ⟨fun h => ?_, fun h => ?_⟩
  · rw [if_pos (mayFetch_iff.2 h), ← hc]
  · rw [if_neg (mt mayFetch_iff.1 h)]

/-! ### The ends of the two reads (R128 to R133, R138) -/

theorem Desc.fails_iff : d.fails = true ↔ failsChecks d := by
  simp only [Desc.fails, failsChecks, Bool.or_eq_true, Bool.and_eq_true, bne_iff_ne, beq_iff_eq, decide_eq_true_eq,
    or_assoc]
  rfl

theorem Desc.readsPayload_iff (hd : d.kind ≠ .marker) :
    d.readsPayload = true ↔ 0 < d.outLength ∧ ¬ (d.kind = .answer ∧ d.decline = true) := by
  simp [Desc.readsPayload, hd, imp_iff_not_or]

/-- R128: a ring whose slot has been read. -/
def SubRing.fetched (k : SubRing) : SubRing := { k with fetch := nextSlot k.size k.fetch }

section
variable (hl : s.live = true) (ho : (s.sub r).occupancy = .fetching) (hr : (s.sub r).reading = some .slot) (h0 : r ≠ 0)
include hl ho hr h0

theorem slotReadEnd_fault :
    exec (.slotReadEnd r .fault) s = .next
      ((s.setSub r { s.sub r with state := if (s.sub r).state = .active then .faulted else (s.sub r).state }).handOver r
        { tag := 0, tagAbsent := true, status := .fetchFault }) := by
  have hexec : exec (.slotReadEnd r .fault) s = execSlotReadEnd r .fault s := rfl
  rw [hexec]
  unfold execSlotReadEnd
  simp only [if_pos (⟨hl, ho, hr⟩ : s.live = true ∧ _ ∧ _), if_neg h0]

theorem slotReadEnd_data (hlength : bytes.length = 64) :
    exec (.slotReadEnd r (.data bytes)) s = .next ((s.setSub r (s.sub r).fetched).takeDescriptor r bytes) := by
  have hexec : exec (.slotReadEnd r (.data bytes)) s = execSlotReadEnd r (.data bytes) s := rfl
  rw [hexec]
  unfold execSlotReadEnd
  simp only [if_pos (⟨hl, ho, hr⟩ : s.live = true ∧ _ ∧ _), if_neg h0, fitTo_of_length hlength]
  rfl

end

/-- R129: ring 0's slot brings a command. -/
theorem slotReadEnd_admin (hl : s.live = true) (ho : (s.sub 0).occupancy = .fetching)
    (hr : (s.sub 0).reading = some .slot) (hlength : bytes.length = 64) :
    exec (.slotReadEnd 0 (.data bytes)) s = .next
      { s.setSub 0
          { (s.sub 0).fetched with
            occupancy := .staged, reading := none, staged := some (.admin (tagOf bytes) (decodeAdmin bytes)) } with
        admin := .fresh } := by
  have hexec : exec (.slotReadEnd 0 (.data bytes)) s = execSlotReadEnd 0 (.data bytes) s := rfl
  rw [hexec]
  unfold execSlotReadEnd
  simp only [if_pos (⟨hl, ho, hr⟩ : s.live = true ∧ _ ∧ _), if_true, fitTo_of_length hlength]
  rfl

section
variable (ho : (s.sub r).occupancy = .fetching) (hc : (s.sub r).completion = some c)
include ho hc

theorem handOver_plain {tag : BitVec 16} {status : Status} :
    s.handOver r { tag, status } = handedOver s r c (plainEntry s r tag status) := State.handOver_eq hc (.inl ho)

theorem takeDescriptor_undecoded (h : decodeXfer bytes = none) :
    s.takeDescriptor r bytes = handedOver s r c (plainEntry s r (tagOf bytes) .badDescriptor) := by
  rw [State.takeDescriptor, h]
  exact handOver_plain ho hc

theorem takeDescriptor_fails (h : decodeXfer bytes = some d) (hf : failsChecks d) :
    s.takeDescriptor r bytes = handedOver s r c (plainEntry s r d.tag .badDescriptor) := by
  simp only [State.takeDescriptor, h, Desc.fails_iff.2 hf, if_true]
  exact handOver_plain ho hc

theorem takeDescriptor_marker (h : decodeXfer bytes = some d) (hf : ¬ failsChecks d) (hm : d.kind = .marker) :
    s.takeDescriptor r bytes = handedOver s r c (plainEntry s r d.tag .success) := by
  simp only [State.takeDescriptor, h, if_neg (mt Desc.fails_iff.1 hf), if_pos hm]
  exact handOver_plain ho hc

theorem takeDescriptor_draining (h : decodeXfer bytes = some d) (hf : ¬ failsChecks d) (hm : d.kind ≠ .marker)
    (hs : (s.sub r).state = .draining) :
    s.takeDescriptor r bytes = handedOver s r c (plainEntry s r d.tag .aborted) := by
  simp only [State.takeDescriptor, h, if_neg (mt Desc.fails_iff.1 hf), if_neg hm, if_pos hs]
  exact handOver_plain ho hc

end

theorem takeDescriptor_reads (h : decodeXfer bytes = some d) (hf : ¬ failsChecks d) (hm : d.kind ≠ .marker)
    (hs : (s.sub r).state ≠ .draining) (hn : 0 < d.outLength) (ha : ¬ (d.kind = .answer ∧ d.decline = true)) :
    s.takeDescriptor r bytes = s.setSub r { s.sub r with reading := some (.payload d) } := by
  simp only [State.takeDescriptor, h, if_neg (mt Desc.fails_iff.1 hf), if_neg hm, if_neg hs,
    if_pos ((Desc.readsPayload_iff hm).2 ⟨hn, ha⟩)]

theorem takeDescriptor_stages (h : decodeXfer bytes = some d) (hf : ¬ failsChecks d) (hm : d.kind ≠ .marker)
    (hs : (s.sub r).state ≠ .draining) (hn : d.outLength = 0 ∨ (d.kind = .answer ∧ d.decline = true)) :
    s.takeDescriptor r bytes = s.stage r d [] := by
  have hreads : ¬ d.readsPayload = true := by
    rw [Desc.readsPayload_iff hm]
    rintro ⟨hpos, ha⟩
    rcases hn with hn | hn
    · omega
    · exact ha hn
  simp only [State.takeDescriptor, h, if_neg (mt Desc.fails_iff.1 hf), if_neg hm, if_neg hs, if_neg hreads]

section
variable (hl : s.live = true) (ho : (s.sub r).occupancy = .fetching) (hr : (s.sub r).reading = some (.payload d))
  (hc : (s.sub r).completion = some c)
include hl ho hr hc

theorem payloadReadEnd_fault :
    exec (.payloadReadEnd r .fault) s = .next (handedOver s r c (plainEntry s r d.tag .fetchFault)) := by
  have hexec : exec (.payloadReadEnd r .fault) s = execPayloadReadEnd r .fault s := rfl
  rw [hexec]
  unfold execPayloadReadEnd
  simp only [if_pos (⟨hl, ho⟩ : s.live = true ∧ _), hr]
  exact congrArg _ (handOver_plain ho hc)

theorem payloadReadEnd_draining (hs : (s.sub r).state = .draining) :
    exec (.payloadReadEnd r (.data bytes)) s = .next (handedOver s r c (plainEntry s r d.tag .aborted)) := by
  have hexec : exec (.payloadReadEnd r (.data bytes)) s = execPayloadReadEnd r (.data bytes) s := rfl
  rw [hexec]
  unfold execPayloadReadEnd
  simp only [if_pos (⟨hl, ho⟩ : s.live = true ∧ _), hr, if_pos hs]
  exact congrArg _ (handOver_plain ho hc)

omit hc in
theorem payloadReadEnd_stages (hlength : bytes.length = d.outLength) (hs : (s.sub r).state ≠ .draining) :
    exec (.payloadReadEnd r (.data bytes)) s = .next (s.stage r d bytes) := by
  have hexec : exec (.payloadReadEnd r (.data bytes)) s = execPayloadReadEnd r (.data bytes) s := rfl
  rw [hexec]
  unfold execPayloadReadEnd
  simp only [if_pos (⟨hl, ho⟩ : s.live = true ∧ _), hr, if_neg hs, fitTo_of_length hlength]

end

/-- Settles O14: the two reads, by what they bring. -/
theorem readEndsBringDescriptorToStaging : Obligations.ReadEndsBringDescriptorToStaging := by
  refine ⟨fun s r c bytes hl ho hr hc hlength => ?_, fun s r c d hl ho hr hc => ⟨payloadReadEnd_fault hl ho hr hc,
    fun bytes hlength => ⟨payloadReadEnd_draining hl ho hr hc, payloadReadEnd_stages hl ho hr hlength⟩⟩⟩
  have hself : (s.setSub r (s.sub r).fetched).sub r = (s.sub r).fetched := State.setSub_sub_self ..
  have ho' : ((s.setSub r (s.sub r).fetched).sub r).occupancy = .fetching := by rw [hself]; exact ho
  have hc' : ((s.setSub r (s.sub r).fetched).sub r).completion = some c := by rw [hself]; exact hc
  have hs' : ((s.setSub r (s.sub r).fetched).sub r).state = (s.sub r).state := by rw [hself]; rfl
  have hdata : r ≠ 0 → exec (.slotReadEnd r (.data bytes)) s = _ := fun h0 => slotReadEnd_data hl ho hr h0 hlength
  refine ⟨?admin, fun h0 => ?fault, fun h0 h => ?_, fun d h0 h => ⟨fun hf => ?_, fun hf hm => ?_, fun hf hm hs => ?_,
    fun hf hm hs hn ha => ?_, fun hf hm hs hn => ?_⟩⟩
  case admin =>
    rintro rfl
    exact slotReadEnd_admin hl ho hr hlength
  case fault =>
    rw [slotReadEnd_fault hl ho hr h0,
      State.handOver_eq (c := c) (by rw [State.setSub_sub_self]; exact hc) (by rw [State.setSub_sub_self]; exact .inl ho)]
    simp only [State.setSub_sub_self]
    rfl
  · rw [hdata h0, takeDescriptor_undecoded ho' hc' h]; rfl
  · rw [hdata h0, takeDescriptor_fails ho' hc' h hf]; rfl
  · rw [hdata h0, takeDescriptor_marker ho' hc' h hf hm]; rfl
  · rw [hdata h0, takeDescriptor_draining ho' hc' h hf hm (hs'.trans hs)]; rfl
  · rw [hdata h0, takeDescriptor_reads h hf hm (by rwa [hs']) hn ha]; rfl
  · rw [hdata h0, takeDescriptor_stages h hf hm (by rwa [hs']) hn]; rfl

end Sys2Proof.Machine
end

section
/-!
PROOFS. What a staged descriptor meets outside its attempt: its first consideration (O15), its deadline and the end of its reply
store (O20), DELETE_SUBMISSION_RING (O18) and ABORT (O19).
-/
namespace Sys2Proof.Machine
open Sys2Proof.Safety

variable {s : State} {r : SubId} {c : CplId} {d : Desc} {p : PortId} {payload : List Byte} {e e' : ExecRec}
  {x : StagedXfer}

/-- A second update of a submission ring replaces the first. -/
theorem State.setSub_setSub (s : State) (r : SubId) (x y : SubRing) : (s.setSub r x).setSub r y = s.setSub r y := by
  simp [State.setSub]

/-- R62: no other status than an attempt's end hands an outcome to the health table. -/
theorem State.tellHealth_silent {q : PortId} {status : Status} (h : status = .portDown ∨ status = .barred ∨ status = .storeFault) :
    s.tellHealth q d status = s := by
  rcases h with rfl | rfl | rfl <;> exact ite_self _

/-! ### The health check (R45) -/

section
variable (entry : Option HealthState) (hentry : (s.healthEntry p x.desc.dest).map HealthEntry.state = entry)
include hentry

/-- R45, R76: a NOTICE, a target without an entry or with a GOOD one, and a PROBE of a BARRED one keep their own limit. -/
theorem healthCheck_own
    (h : x.desc.kind = .notice ∨ entry = none ∨ entry = some .good ∨ (entry = some .barred ∧ x.desc.probe = true)) :
    s.healthCheck r p x e = s.setExec r x { e with state := .eligible, limit := x.desc.attemptLimit } := by
  unfold State.healthCheck
  dsimp only
  split
  · rfl
  · rename_i hn
    rw [hentry]
    rcases h with h | rfl | rfl | ⟨rfl, hprobe⟩
    · exact absurd h hn
    · rfl
    · rfl
    · simp only [hprobe, if_true]

theorem healthCheck_suspect (hn : x.desc.kind ≠ .notice) (h : entry = some .suspect) :
    s.healthCheck r p x e = s.setExec r x { e with state := .eligible, limit := 1 } := by
  unfold State.healthCheck
  dsimp only
  rw [if_neg hn, hentry, h]

theorem healthCheck_barred (hn : x.desc.kind ≠ .notice) (h : entry = some .barred) (hprobe : x.desc.probe = false) :
    s.healthCheck r p x e = s.completeExec r .barred e.lastBytes := by
  unfold State.healthCheck
  dsimp only
  rw [if_neg hn, hentry, h]
  simp only [hprobe, Bool.false_eq_true, if_false]

end

/-! ### Staging and the first consideration (R133, R45) -/

/-- R133: the transfer descriptor that staging puts into its ring. -/
def stagedXfer (s : State) (d : Desc) (payload : List Byte) (e : Option ExecRec) : StagedXfer :=
  { desc := d, payload, time := s.timeBase, exec := e }

theorem stagedWith_sub (e : Option ExecRec) :
    (stagedWith s r d payload e).sub r =
      { s.sub r with
        occupancy := .staged, reading := none, abortPending := false,
        staged := some (.xfer (stagedXfer s d payload e)) } := State.setSub_sub_self ..

theorem stagedWith_execOf : (stagedWith s r d payload (some e)).execOf r = some (stagedXfer s d payload (some e), e) := by
  rw [State.execOf, State.stagedOf, stagedWith_sub]
  rfl

/-- R45: the first consideration replaces the execution record. -/
theorem stagedWith_setExec :
    (stagedWith s r d payload (some e)).setExec r (stagedXfer s d payload (some e)) e' =
      stagedWith s r d payload (some e') := by
  rw [State.setExec, stagedWith_sub, stagedWith, State.setSub_setSub]
  rfl

theorem stage_ownStation (hc : (s.sub r).completion = some c) (ho : (s.sub r).occupancy = .fetching)
    (hp : (s.sub r).port = some p) (hk : d.kind = .send ∨ d.kind = .query) (hd : d.dest = (s.port p).config.station) :
    s.stage r d payload = handedOver s r c (plainEntry s r d.tag .badDescriptor) := by
  unfold State.stage
  rw [if_pos ⟨hk, by simp [hp, hd]⟩]
  exact State.handOver_eq hc (.inl ho)

theorem stage_answer (hk : d.kind = .answer) : s.stage r d payload = stagedWith s r d payload none := by
  unfold State.stage
  rw [if_neg (by simp [hk])]
  simp only [hk, if_true]
  rfl

theorem stage_considers (hp : (s.sub r).port = some p)
    (hk : d.kind = .notice ∨ ((d.kind = .send ∨ d.kind = .query) ∧ d.dest ≠ (s.port p).config.station)) :
    s.stage r d payload = (stagedWith s r d payload (some (newRecord .held d.attemptLimit))).consider r := by
  have hanswer : d.kind ≠ .answer := by rcases hk with hk | ⟨hk | hk, -⟩ <;> rw [hk] <;> nofun
  unfold State.stage
  rw [if_neg ?_]
  · simp only [if_neg hanswer]
    rfl
  · rintro ⟨hkind, hown⟩
    rcases hk with hk | ⟨-, hd⟩
    · simp [hk] at hkind
    · simp only [hp, Option.map_some, Option.some.injEq] at hown
      exact hd hown.symm

section
variable {limit : Nat} (hp : (s.sub r).port = some p)
include hp

theorem stagedWith_completes {status : Status} (hc : (s.sub r).completion = some c) (ha : NoAbortWaits s r)
    (hst : status = .portDown ∨ status = .barred) :
    (stagedWith s r d payload (some (newRecord .held limit))).completeExec r status 0 =
      handedOver (stagedWith s r d payload (some (newRecord .held limit))) r c
        (plainEntry (stagedWith s r d payload (some (newRecord .held limit))) r d.tag status) := by
  rw [State.completeExec_told (c := c) (q := p) (abort := none) stagedWith_execOf (by rw [stagedWith_sub]; exact hp)
    (by rw [stagedWith_sub]; exact hc) ha, State.tellHealth_silent (by tauto)]
  rfl

theorem consider_down (hc : (s.sub r).completion = some c) (ha : NoAbortWaits s r)
    (hx : (s.port p).state = .off ∨ (s.port p).state = .faulted) :
    (stagedWith s r d payload (some (newRecord .held limit))).consider r =
      handedOver (stagedWith s r d payload (some (newRecord .held limit))) r c
        (plainEntry (stagedWith s r d payload (some (newRecord .held limit))) r d.tag .portDown) := by
  have hport : ((stagedWith s r d payload (some (newRecord .held limit))).sub r).port = some p := by
    rw [stagedWith_sub]; exact hp
  have hx' : ((stagedWith s r d payload (some (newRecord .held limit))).port p).state = (s.port p).state := rfl
  unfold State.consider
  rw [hport, stagedWith_execOf]
  rcases hx with hx | hx <;>
  · simp only [hx', hx]
    exact stagedWith_completes hp hc ha (.inl rfl)

theorem consider_recovering (hx : (s.port p).state = .recovering) :
    (stagedWith s r d payload (some (newRecord .held limit))).consider r =
      stagedWith s r d payload (some (newRecord .held limit)) := by
  have hport : ((stagedWith s r d payload (some (newRecord .held limit))).sub r).port = some p := by
    rw [stagedWith_sub]; exact hp
  have hx' : ((stagedWith s r d payload (some (newRecord .held limit))).port p).state = (s.port p).state := rfl
  unfold State.consider
  rw [hport, stagedWith_execOf]
  simp only [hx', hx]
  exact stagedWith_setExec

theorem consider_works (hoff : (s.port p).state ≠ .off) (hfaulted : (s.port p).state ≠ .faulted)
    (hrecovering : (s.port p).state ≠ .recovering) :
    (stagedWith s r d payload (some e)).consider r =
      (stagedWith s r d payload (some e)).healthCheck r p (stagedXfer s d payload (some e)) e := by
  have hport : ((stagedWith s r d payload (some e)).sub r).port = some p := by rw [stagedWith_sub]; exact hp
  have hx' : ((stagedWith s r d payload (some e)).port p).state = (s.port p).state := rfl
  unfold State.consider
  rw [hport, stagedWith_execOf]
  simp only [hx']

end

/-- Settles O15: the descriptor's kind and target, the port's state, and the target's health entry. -/
theorem stagingConsidersAtOnce : Obligations.StagingConsidersAtOnce := by
  intro s r p c d payload hp hc ho ha
  have hentry : ∀ e, ((stagedWith s r d payload (some e)).healthEntry p (stagedXfer s d payload (some e)).desc.dest).map
      HealthEntry.state = (s.healthEntry p d.dest).map HealthEntry.state := fun _ => rfl
  refine ⟨fun hk hd => stage_ownStation hc ho hp hk hd, stage_answer, fun hk => ?_⟩
  rw [stage_considers hp hk]
  refine ⟨consider_down hp hc ha, consider_recovering hp, fun hoff hfaulted hrecovering => ?_⟩
  rw [consider_works hp hoff hfaulted hrecovering]
  refine ⟨fun hh => ?_, fun hn hh => ?_, fun hn hh hprobe => ?_⟩
  · rw [healthCheck_own _ (hentry _) hh]
    exact stagedWith_setExec
  · rw [healthCheck_suspect _ (hentry _) hn hh]
    exact stagedWith_setExec
  · rw [healthCheck_barred _ (hentry _) hn hh hprobe]
    exact stagedWith_completes hp hc ha (.inr rfl)

/-! ### Deadlines and the end of a reply store (R57, R58) -/

theorem reach_self (t : Time) : reach t t = t := by simp [reach]

section
variable {abort : Option (BitVec 16 × Status)} (he : s.execOf r = some (x, e))
include he

section
variable (hl : s.live = true) (hd : x.desc.deadline ≠ 0) (hpassed : e.deadlinePassed = false)
  (hnow : s.timeBase = x.time + micros (1000 * x.desc.deadline))
include hl hd hpassed hnow

theorem deadlineExpiry_cases :
    (e.state = .held ∨ e.state = .eligible → exec (.deadlineExpiry r) s = .next (s.completeExec r .expired e.lastBytes)) ∧
    (e.state = .inAttempt → exec (.deadlineExpiry r) s = .next (s.setExec r x { e with deadlinePassed := true })) ∧
    (e.state = .storing → exec (.deadlineExpiry r) s = .next s) := by
  have hexec : exec (.deadlineExpiry r) s = execDeadlineExpiry r s := rfl
  have htime : ({ s with timeBase := reach s.timeBase (x.time + micros (1000 * x.desc.deadline)) } : State) = s := by
    rw [← hnow, reach_self]
  rw [hexec]
  unfold execDeadlineExpiry
  simp only [he, if_pos (⟨hl, hd, hpassed⟩ : s.live = true ∧ _ ∧ _), htime]
  refine ⟨fun hs => ?_, fun hs => ?_, fun hs => ?_⟩
  · rcases hs with hs | hs <;> simp only [hs]
  · simp only [hs]
  · simp only [hs]

end

theorem replyStoreEnd_eq {write : WriteEnd} (hl : s.live = true) (hs : e.state = .storing) :
    exec (.replyStoreEnd r write) s = .next
      (if write = .ok then s.completeExec r ((e.lastResult.map AttemptResult.status).getD .success) e.lastBytes
       else s.completeExec r .storeFault 0) := by
  have hexec : exec (.replyStoreEnd r write) s = execReplyStoreEnd r write s := rfl
  rw [hexec]
  unfold execReplyStoreEnd
  simp only [he, if_pos (⟨hl, hs⟩ : s.live = true ∧ _)]
  cases write <;> rfl

end

/-- Settles O20: the deadline by the execution state, the store by its end and the result. -/
theorem deadlinesAndStoresByState : Obligations.DeadlinesAndStoresByState := by
  refine ⟨fun s r p c x e abort hl he hp hc ha hd hpassed hnow => ?_, fun s r p c x e res abort hl he hs hp hc ha hk hres => ?_⟩
  · obtain ⟨hwaits, hattempt, hstoring⟩ := deadlineExpiry_cases he hl hd hpassed hnow
    refine ⟨fun hs => ?_, hattempt, hstoring⟩
    rw [hwaits hs, State.completeExec_eq_completed (status := .expired) e.lastBytes he hp hc ha (.inr rfl)]
  · dsimp only
    have htold : ∀ status n, s.completeExec r status n =
        completed (s.tellHealth p x.desc status) r c (execEntry s r x e status n) abort :=
      fun _ _ => State.completeExec_told he hp hc ha
    rw [replyStoreEnd_eq he hl hs, replyStoreEnd_eq he hl hs, if_pos rfl, if_neg nofun, hres, htold, htold,
      State.tellHealth_silent (status := .storeFault) (.inr (.inr rfl))]
    refine ⟨fun hgood htarget => ?_, fun hgood hentry hown => ?_, rfl⟩
    · rw [Option.map_some, Option.getD_some]
      by_cases hown : x.desc.dest = (s.port p).config.station
      · rw [State.tellHealth_of_not_target (.inr hown)]
      · rw [State.tellHealth_success (.inr hk) hown hgood, State.targetSuccess_of_none (htarget.resolve_right hown)]
    · rw [Option.map_some, Option.getD_some, State.tellHealth_success (.inr hk) hown hgood]

end Sys2Proof.Machine
end

section
/-!
PROOFS. DELETE_SUBMISSION_RING (O18) and ABORT (O19). Both act on the staged descriptor of a ring by `abortStaged`; its cases come
first.
-/
namespace Sys2Proof.Machine
open Sys2Proof.Safety

variable {s : State} {r : SubId} {c : CplId} {p : PortId} {x : StagedXfer} {e : ExecRec} {begun : Bool}
  {abort : Option (BitVec 16 × Status)} {tag : BitVec 16} {cmd : AdminCmd}

/-! ### What the command does to the staged descriptor (R63, R64, R66) -/

theorem abortStaged_none (h : s.stagedOf r = none) : s.abortStaged r begun = s := by simp [State.abortStaged, h]

theorem stagedOf_none (h : (s.sub r).occupancy ≠ .staged) : s.stagedOf r = none := by
  unfold State.stagedOf
  split
  · contradiction
  · rfl

section
variable (he : s.execOf r = some (x, e))
include he

theorem abortStaged_waiting (hp : (s.sub r).port = some p) (hc : (s.sub r).completion = some c) (ha : AbortWaits s r abort)
    (hs : e.state = .held ∨ e.state = .eligible) :
    s.abortStaged r begun = completed s r c (execEntry s r x e .aborted e.lastBytes) abort := by
  obtain ⟨hx, hxe, -, -⟩ := State.staged_of_execOf he
  have := State.completeExec_eq_completed (status := .aborted) e.lastBytes he hp hc ha (.inl rfl)
  rcases hs with hs | hs <;> simp only [State.abortStaged, hx, hxe, hs, this]

theorem abortStaged_storing (hs : e.state = .storing) : s.abortStaged r begun = s := by
  obtain ⟨hx, hxe, -, -⟩ := State.staged_of_execOf he
  simp only [State.abortStaged, hx, hxe, hs]

theorem abortStaged_inAttempt (hs : e.state = .inAttempt) :
    s.abortStaged r begun = (s.setSub r { s.sub r with abortPending := true }).refuseInSlot r begun := by
  obtain ⟨hx, hxe, -, -⟩ := State.staged_of_execOf he
  simp only [State.abortStaged, hx, hxe, hs]

end

section
variable (hx : s.stagedOf r = some x) (hxe : x.exec = none)
include hx hxe

theorem abortStaged_unlatched (hc : (s.sub r).completion = some c) (ha : AbortWaits s r abort) (hl : s.latched r = false) :
    s.abortStaged r begun = completed s r c (plainEntry s r x.desc.tag .aborted) abort := by
  simp only [State.abortStaged, hx, hxe, hl, Bool.false_eq_true, if_false]
  exact State.completeAnswer_eq_completed .aborted 0 hx hc ha

theorem abortStaged_latched (hl : s.latched r = true) :
    s.abortStaged r begun = s.setSub r { s.sub r with abortPending := true } := by
  simp only [State.abortStaged, hx, hxe, hl, if_true]

end

/-- R64: the port refuses the reply byte in whose slot it is, where the verdict bit has not begun. -/
theorem refuseInSlot_refuses {f : FrameRec} {n : Nat} (hp : (s.sub r).port = some p) (hf : (s.port p).frame = some f)
    (ht : f.turn = some r) (hpos : f.position = .replySlot n) :
    s.refuseInSlot r false = s.setPort p { s.port p with frame := some { f with refusing := true } } := by
  simp [State.refuseInSlot, hp, hf, ht, hpos]

theorem refuseInSlot_begun : s.refuseInSlot r true = s := by
  unfold State.refuseInSlot
  split
  · split
    · split
      · rw [if_neg (by simp)]
      · rfl
    · rfl
  · rfl

theorem refuseInSlot_elsewhere (hp : (s.sub r).port = some p)
    (h : ∀ f n, (s.port p).frame = some f → f.turn = some r → f.position ≠ .replySlot n) : s.refuseInSlot r begun = s := by
  unfold State.refuseInSlot
  simp only [hp]
  split
  · rename_i f hf
    split
    · rename_i n hn
      rw [if_neg]
      rintro ⟨ht, -⟩
      exact h f n hf ht hn
    · rfl
  · rfl

/-- R64: the state with an abort pending on a ring, whose context is `k`, and the command in the phase `a`. -/
def aborting (s : State) (r : SubId) (k : SubRing) (a : AdminPhase) : State :=
  { s.setSub r { k with abortPending := true } with admin := a }

section
variable {k : SubRing} {a : AdminPhase} (hp : k.port = some p)
include hp

theorem aborting_port : ((aborting s r k a).sub r).port = some p := by
  have h : (aborting s r k a).sub r = { k with abortPending := true } := State.setSub_sub_self ..
  rw [h, ← hp]

theorem aborting_elsewhere
    (h : begun = true ∨ ∀ f n, (s.port p).frame = some f → f.turn = some r → f.position ≠ .replySlot n) :
    (aborting s r k a).refuseInSlot r begun = aborting s r k a := by
  rcases h with rfl | h
  · exact refuseInSlot_begun
  · exact refuseInSlot_elsewhere (aborting_port hp) h

theorem aborting_refuses {f : FrameRec} {n : Nat} (hf : (s.port p).frame = some f) (ht : f.turn = some r)
    (hpos : f.position = .replySlot n) :
    (aborting s r k a).refuseInSlot r false =
      (aborting s r k a).setPort p { s.port p with frame := some { f with refusing := true } } :=
  refuseInSlot_refuses (aborting_port hp) hf ht hpos

end

/-! ### DELETE_SUBMISSION_RING (R137 to R139) -/

/-- R138: a submission ring that brings its last fetched descriptor to an end. -/
def SubRing.drained (k : SubRing) : SubRing := { k with state := .draining, producer := k.fetch }

/-- R138: the state in which a deletion waits for that. -/
def draining (s : State) (r : SubId) : State := { s.setSub r (s.sub r).drained with admin := .deletingSub r }

theorem draining_sub : (draining s r).sub r = (s.sub r).drained := State.setSub_sub_self ..

theorem draining_stagedOf : (draining s r).stagedOf r = s.stagedOf r := by
  rw [State.stagedOf, draining_sub]
  rfl

theorem draining_execOf : (draining s r).execOf r = s.execOf r := by rw [State.execOf, draining_stagedOf]; rfl

theorem draining_latched : (draining s r).latched r = s.latched r := by
  rw [State.latched, draining_sub]
  rfl

theorem draining_setSub (y : SubRing) : (draining s r).setSub r y = { s.setSub r y with admin := .deletingSub r } := by
  simp [draining, State.setSub]

theorem exec_deleteSub_eq : exec (.deleteSubmissionRing begun) s = execDeleteSubmissionRing begun s := rfl

theorem deleteSub_bad {ring : Nat} (h : Carries s tag (.deleteSubmissionRing ring)) (hbad : ring = 0 ∨ 31 < ring) :
    exec (.deleteSubmissionRing begun) s = .next (commandEnds s tag .badParameter) := by
  rw [exec_deleteSub_eq, execDeleteSubmissionRing, freshCmd_of_carries h]
  dsimp only
  rcases hbad with rfl | hbad
  · exact congrArg _ (finishAdmin_of_carries h)
  · rw [numbered_eq_none hbad]
    exact congrArg _ (finishAdmin_of_carries h)

section
variable (h : Carries s tag (.deleteSubmissionRing r.val)) (h0 : r ≠ 0)
include h h0

theorem deleteSub_absent (hs : (s.sub r).state = .absent) :
    exec (.deleteSubmissionRing begun) s = .next (commandEnds s tag .notFound) := by
  rw [exec_deleteSub_eq, execDeleteSubmissionRing, freshCmd_of_carries h]
  simp only [numbered_val, if_neg h0, hs, finishAdmin_of_carries h]

theorem deleteSub_empty (hs : (s.sub r).state = .active ∨ (s.sub r).state = .faulted) (ho : (s.sub r).occupancy = .empty) :
    exec (.deleteSubmissionRing begun) s = .next (commandEnds (s.setSub r .reset) tag .success) := by
  rw [exec_deleteSub_eq, execDeleteSubmissionRing, freshCmd_of_carries h]
  rcases hs with hs | hs <;> simp only [numbered_val, if_neg h0, hs, if_pos ho, finishAdmin_of_carries (carries_setSub h0 h)]

theorem deleteSub_faulted (hs : (s.sub r).state = .faulted) (ho : (s.sub r).occupancy ≠ .empty) :
    exec (.deleteSubmissionRing begun) s = .next { s with admin := .deletingSub r } := by
  rw [exec_deleteSub_eq, execDeleteSubmissionRing, freshCmd_of_carries h]
  simp only [numbered_val, if_neg h0, hs, if_neg ho]

theorem deleteSub_occupied (hs : (s.sub r).state = .active) (ho : (s.sub r).occupancy ≠ .empty) :
    exec (.deleteSubmissionRing begun) s = .next ((draining s r).abortStaged r begun) := by
  rw [exec_deleteSub_eq, execDeleteSubmissionRing, freshCmd_of_carries h]
  simp only [numbered_val, if_neg h0, hs, if_neg ho]
  rfl

end

theorem draining_aborting :
    (draining s r).setSub r { (draining s r).sub r with abortPending := true } =
      aborting s r (s.sub r).drained (.deletingSub r) := by
  rw [draining_setSub, draining_sub]
  rfl

theorem occupancy_of_execOf (he : s.execOf r = some (x, e)) : (s.sub r).occupancy = .staged :=
  (State.staged_of_execOf he).2.2.1

/-- Settles O18: by the ring's state and occupancy, then by what its staged descriptor is doing. -/
theorem deleteSubmissionRingDrains : Obligations.DeleteSubmissionRingDrains := by
  intro s tag ring begun h
  refine ⟨deleteSub_bad h, fun r hr h0 => ?_⟩
  subst hr
  have h0 : r ≠ 0 := fun hr => h0 (by rw [hr]; rfl)
  have hstaged : ∀ x, s.stagedOf r = some x → (s.sub r).occupancy ≠ .empty := fun x hx => by
    rw [State.occupancy_of_stagedOf hx]; nofun
  have hexec : ∀ x e, s.execOf r = some (x, e) → (s.sub r).occupancy ≠ .empty := fun x e he => by
    rw [occupancy_of_execOf he]; nofun
  have hwaits : AbortWaits (draining s r) r none := fun status => nofun
  have hport : ((draining s r).sub r).port = (s.sub r).port := by rw [draining_sub]; rfl
  have hcompletion : ((draining s r).sub r).completion = (s.sub r).completion := by rw [draining_sub]; rfl
  refine ⟨deleteSub_absent h h0, deleteSub_empty h h0, deleteSub_faulted h h0, fun hs ho => ?_, fun x e p c hs he hp hc hw => ?_,
    fun x e hs he hst => ?_, fun x e p hs he hst hp => ⟨fun hslot => ?_, fun f n hbegun hf ht hpos => ?_⟩,
    fun x c hs hx hxe hc => ⟨fun hl => ?_, fun hl => ?_⟩⟩
  · rw [deleteSub_occupied h h0 hs (by rcases ho with ho | ho <;> rw [ho] <;> nofun), abortStaged_none]
    · rfl
    · rw [draining_stagedOf, stagedOf_none]
      rcases ho with ho | ho <;> rw [ho] <;> nofun
  · rw [deleteSub_occupied h h0 hs (hexec x e he), abortStaged_waiting (c := c) (abort := none) (draining_execOf.trans he)
      (hport.trans hp) (hcompletion.trans hc) hwaits hw]
    rfl
  · rw [deleteSub_occupied h h0 hs (hexec x e he), abortStaged_storing (draining_execOf.trans he) hst]
    rfl
  · rw [deleteSub_occupied h h0 hs (hexec x e he), abortStaged_inAttempt (draining_execOf.trans he) hst, draining_aborting]
    rw [aborting_elsewhere (k := (s.sub r).drained) hp hslot]
    rfl
  · subst hbegun
    rw [deleteSub_occupied h h0 hs (hexec x e he), abortStaged_inAttempt (draining_execOf.trans he) hst, draining_aborting,
      aborting_refuses (k := (s.sub r).drained) hp hf ht hpos]
    rfl
  · rw [deleteSub_occupied h h0 hs (hstaged x hx), abortStaged_unlatched (c := c) (abort := none)
      (draining_stagedOf.trans hx) hxe (hcompletion.trans hc) hwaits (draining_latched.trans hl)]
    rfl
  · rw [deleteSub_occupied h h0 hs (hstaged x hx), abortStaged_latched (draining_stagedOf.trans hx) hxe
      (draining_latched.trans hl), draining_aborting]
    rfl

/-! ### ABORT (R63, R64, R66, R67) -/

theorem exec_abort_eq : exec (.abort begun) s = execAbort begun s := rfl

/-- R63: the state in which an ABORT waits for the descriptor that it has found. -/
def aborts (s : State) (r : SubId) (status : Status) : State := { s with admin := .aborting r status }

theorem abort_bad {ring : Nat} {named : BitVec 16} (h : Carries s tag (.abort ring named)) (hbad : ring = 0 ∨ 31 < ring) :
    exec (.abort begun) s = .next (commandEnds s tag .badParameter) := by
  rw [exec_abort_eq, execAbort, freshCmd_of_carries h]
  dsimp only
  rcases hbad with rfl | hbad
  · exact congrArg _ (finishAdmin_of_carries h)
  · rw [numbered_eq_none hbad]
    exact congrArg _ (finishAdmin_of_carries h)

section
variable {named : BitVec 16} (h : Carries s tag (.abort r.val named)) (h0 : r ≠ 0)
include h h0

theorem abort_absent (hs : (s.sub r).state = .absent) : exec (.abort begun) s = .next (commandEnds s tag .notFound) := by
  rw [exec_abort_eq, execAbort, freshCmd_of_carries h]
  simp only [numbered_val, if_neg h0, if_pos hs, finishAdmin_of_carries h]

theorem abort_nothing_staged (hx : s.stagedOf r = none) :
    exec (.abort begun) s = .next (commandEnds s tag .notFound) := by
  rw [exec_abort_eq, execAbort, freshCmd_of_carries h]
  simp only [numbered_val, if_neg h0, hx, finishAdmin_of_carries h, ite_self]

section
variable (hs : (s.sub r).state ≠ .absent) (hx : s.stagedOf r = some x)
include hs hx

theorem abort_other_tag (hn : x.desc.tag ≠ named) : exec (.abort begun) s = .next (commandEnds s tag .notFound) := by
  rw [exec_abort_eq, execAbort, freshCmd_of_carries h]
  simp only [numbered_val, if_neg h0, if_neg hs, hx, if_neg hn, finishAdmin_of_carries h]

theorem abort_found (hn : x.desc.tag = named) :
    exec (.abort begun) s = .next
      ((aborts s r (if x.exec.map ExecRec.state = some .storing then .notFound else .success)).abortStaged r begun) := by
  rw [exec_abort_eq, execAbort, freshCmd_of_carries h]
  simp only [numbered_val, if_neg h0, if_neg hs, hx, if_pos hn]
  rfl

end

/-- R67: the ABORT then waits for its descriptor. -/
theorem aborts_waits (status : Status) : AbortWaits (aborts s r status) r (some (tag, status)) := by
  obtain ⟨-, -, ho, hs, hc⟩ := h
  exact ⟨h0, rfl, ho, ⟨_, hs⟩, hc⟩

end

theorem execOf_of_stagedOf (hx : s.stagedOf r = some x) (he : x.exec = some e) : s.execOf r = some (x, e) := by
  simp [State.execOf, hx, he]

/-- R67: the ABORT that waits for a descriptor completes directly after it. -/
theorem complete_with_abort {d : Done} {status : Status} (ha : AbortWaits s r (some (tag, status)))
    (hc : (s.sub r).completion = some c) (ho : (s.sub r).occupancy = .fetching ∨ (s.sub r).occupancy = .staged) :
    s.complete r d = commandEnds
      (handedOver s r c
        { ring := r, tag := d.tag, tagAbsent := d.tagAbsent, release := (s.sub r).fetch, status := d.status,
          bytes := d.bytes, attempts := d.attempts, losses := d.losses, result := d.result }) tag status := by
  obtain ⟨hr, hadmin, ho0, ⟨cmd, hs0⟩, hc0⟩ := ha
  have h0 : ∀ e, (handedOver s r c e).sub 0 = s.sub 0 := fun _ => handedOver_sub_ne hr.symm
  have hadm : ∀ e, (handedOver s r c e).admin = .aborting r status := fun _ => hadmin
  unfold State.complete
  simp only [State.handOver_eq hc ho, hadm, if_true]
  exact finishAdmin_of_staged (by rw [h0, ho0]) (by rw [h0, hs0]) (by rw [h0, hc0])

/-- Settles O19: by what the ABORT finds; and its completion follows that of its descriptor. -/
theorem abortByWhatItFinds : Obligations.AbortByWhatItFinds := by
  refine ⟨fun s tag ring named begun h => ⟨abort_bad h, fun r hr h0 => ?_⟩,
    fun s r c d tag status ha hc ho => complete_with_abort ha hc ho⟩
  subst hr
  have h0 : r ≠ 0 := fun hr => h0 (by rw [hr]; rfl)
  refine ⟨abort_absent h h0, abort_nothing_staged h h0, fun x p c hs hx hp hc => ⟨abort_other_tag h h0 hs hx, fun hn e he hw => ?_,
    fun hn e he hst => ?_, fun hn e he hst => ⟨fun hslot => ?_, fun f n hbegun hf ht hpos => ?_⟩, fun hn hxe hl => ?_,
    fun hn hxe hl => ?_⟩⟩
  all_goals rw [abort_found h h0 hs hx hn]
  · have hst : ¬ x.exec.map ExecRec.state = some .storing := by rcases hw with hw | hw <;> simp [he, hw]
    rw [if_neg hst, abortStaged_waiting (s := aborts s r .success) (execOf_of_stagedOf hx he) hp hc (aborts_waits h h0 _) hw]
    rfl
  · rw [if_pos (by simp [he, hst]), abortStaged_storing (s := aborts s r .notFound) (execOf_of_stagedOf hx he) hst]
    rfl
  · rw [if_neg (by simp [he, hst]), abortStaged_inAttempt (s := aborts s r .success) (execOf_of_stagedOf hx he) hst]
    exact congrArg _ (aborting_elsewhere (k := s.sub r) hp hslot)
  · subst hbegun
    rw [if_neg (by simp [he, hst]), abortStaged_inAttempt (s := aborts s r .success) (execOf_of_stagedOf hx he) hst]
    exact congrArg _ (aborting_refuses (k := s.sub r) hp hf ht hpos)
  · rw [if_neg (by simp [hxe]),
      abortStaged_unlatched (s := aborts s r .success) (c := c) hx hxe hc (aborts_waits h h0 _) hl]
    rfl
  · rw [if_neg (by simp [hxe]), abortStaged_latched (s := aborts s r .success) hx hxe hl]
    rfl

end Sys2Proof.Machine
end

section
/-!
PROOFS. The records that the device writes: their bytes as fields (O21, the first half of O26), and what the end of such a write
does (O22, the second half of O26).
-/
namespace Sys2Proof.Machine
open Sys2Proof.Safety

variable {s : State}

/-! ### Bytes and little-endian fields (R185) -/

theorem byteOf_toNat {n : Nat} (h : n < 256) : (byteOf n).toNat = n := by
  rw [byteOf, BitVec.toNat_ofNat]
  exact Nat.mod_eq_of_lt h

/-- R185: the four bytes of a doubleword make the doubleword. -/
theorem extractLsb'_append_four (v : BitVec 32) :
    (v.extractLsb' 24 8 ++ v.extractLsb' 16 8) ++ (v.extractLsb' 8 8 ++ v.extractLsb' 0 8) = v := by
  rw [BitVec.extractLsb'_append_extractLsb'_eq_extractLsb' (by rfl), BitVec.extractLsb'_append_extractLsb'_eq_extractLsb' (by rfl),
    BitVec.extractLsb'_append_extractLsb'_eq_extractLsb' (by rfl)]
  exact BitVec.extractLsb'_eq_self

theorem byteAt_append_right {l l' : List Byte} {n i : Nat} (h : l.length = n) : byteAt (l ++ l') (n + i) = byteAt l' i := by
  simp [byteAt, ← h, List.getElem?_append_right]

theorem byteAt_fitTo {n i : Nat} {d : List Byte} (h : i < n) : byteAt (fitTo n d) i = byteAt d i := by
  simp only [byteAt, fitTo, List.getD_eq_getElem?_getD]
  by_cases hd : i < d.length
  · rw [List.getElem?_append_left (by simp; omega), List.getElem?_take_of_lt h]
  · rw [List.getElem?_append_right (by simp; omega), List.getElem?_eq_none (by omega : d.length ≤ i), List.getElem?_replicate]
    split <;> rfl

theorem length_fitTo (n : Nat) (d : List Byte) : (fitTo n d).length = n := by
  simp [fitTo]
  omega

theorem Status.code_lt (x : Status) : x.code < 256 := by cases x <;> decide

/-! ### The completion record (R144, 11.6) -/

/-- 11.6: the 32 bytes of a completion record. -/
theorem completionRecord_bytes (e : CplEntry) (phase : Bool) (now : Time) :
    ∃ bytes, completionRecord e phase now = bytes ∧ bytes.length = 32 ∧
      le16At bytes 0x00 = e.tag ∧ (byteAt bytes 0x02).toNat = e.status.code ∧ (byteAt bytes 0x03).toNat = e.ring.val ∧
      (e.release < 65536 → (le16At bytes 0x04).toNat = e.release) ∧ (e.bytes < 256 → (byteAt bytes 0x06).toNat = e.bytes) ∧
      (e.attempts < 16 → (byteAt bytes 0x07).toNat = e.attempts) ∧ le32At bytes 0x08 = e.result ∧
      le32At bytes 0x0C = now ∧ (e.losses < 256 → (byteAt bytes 0x10).toNat = e.losses) ∧
      (∀ i, 0x11 ≤ i → i ≤ 0x1E → byteAt bytes i = 0) ∧
      (byteAt bytes 0x1F).toNat = phase.toNat + 2 * e.tagAbsent.toNat := by
  refine ⟨_, rfl, rfl, extractLsb'_append_low_high e.tag, byteOf_toNat e.status.code_lt, byteOf_toNat (by have := e.ring.isLt; omega),
    fun h => ?_, byteOf_toNat, fun h => ?_, extractLsb'_append_four e.result, extractLsb'_append_four now, byteOf_toNat, fun i h1 h2 => ?_, ?_⟩
  · refine (congrArg BitVec.toNat (extractLsb'_append_low_high (BitVec.ofNat 16 e.release))).trans ?_
    rw [BitVec.toNat_ofNat]
    exact Nat.mod_eq_of_lt h
  · show ((BitVec.ofNat 4 e.attempts).setWidth 8).toNat = _
    rw [BitVec.toNat_setWidth, BitVec.toNat_ofNat]
    omega
  · interval_cases i <;> rfl
  · show ((BitVec.ofBool phase).setWidth 8 ||| ((BitVec.ofBool e.tagAbsent).setWidth 8 <<< 1)).toNat = _
    cases phase <;> cases e.tagAbsent <;> rfl

/-- Settles O21: the write at the head of the queue, with the record's bytes. -/
theorem completionWriteStartFixesRecord : Obligations.CompletionWriteStartFixesRecord := by
  intro s c e rest hl hq hw
  obtain ⟨bytes, hbytes, hfields⟩ := completionRecord_bytes e (s.cpl c).phase s.timeBase
  refine ⟨bytes, ?_, hfields⟩
  have hexec : exec (.completionWriteStart c) s = execCompletionWriteStart c s := rfl
  rw [hexec, execCompletionWriteStart]
  simp only [hq, hw, if_pos hl, CplRing.recordWrite, hbytes]

/-! ### The receive record (R161, R163, 11.6) -/

/-- 11.6: the 32 bytes of a receive record before its payload. -/
def receiveHeader (e : RcvEntry) (phase : Bool) (lost : BitVec 16) : List Byte :=
  [byteOf e.kind.code, byteOf e.port.val, byteOf e.frameKind.code, byteOf e.entry.val] ++
    leBytes 2 (e.source.setWidth 16) ++ [e.channel, byteOf e.length] ++ leBytes 2 (e.token.getD 0) ++
    [byteOf ((e.reason.map CloseReason.code).getD 0), byteOf ((e.slot.map Fin.val).getD 0)] ++
    leBytes 2 lost ++ zeros 2 ++ leBytes 4 e.timestamp ++ zeros 11 ++ [(BitVec.ofBool phase).setWidth 8]

theorem receiveRecord_eq (e : RcvEntry) (phase : Bool) (lost : Nat) :
    receiveRecord e phase lost = receiveHeader e phase (BitVec.ofNat 16 lost) ++ fitTo 64 e.payload := rfl

theorem receiveHeader_length (e : RcvEntry) (phase : Bool) (lost : BitVec 16) : (receiveHeader e phase lost).length = 32 := rfl

theorem le16At_receiveHeader_lost (e : RcvEntry) (phase : Bool) (lost : BitVec 16) (l : List Byte) :
    le16At (receiveHeader e phase lost ++ l) 0x0C = lost := extractLsb'_append_low_high lost

theorem byteAt_receiveHeader_reserved (e : RcvEntry) (phase : Bool) (lost : BitVec 16) (l : List Byte) {i : Nat} (h1 : 0x14 ≤ i)
    (h2 : i ≤ 0x1E) : byteAt (receiveHeader e phase lost ++ l) i = 0 := by
  interval_cases i <;> rfl

theorem receiveRecord_bytes (e : RcvEntry) (phase : Bool) (lost : Nat) :
    ∃ bytes, receiveRecord e phase lost = bytes ∧ bytes.length = 96 ∧
      (byteAt bytes 0x00).toNat = e.kind.code ∧ (byteAt bytes 0x01).toNat = e.port.val ∧
      (byteAt bytes 0x02).toNat = e.frameKind.code ∧ (byteAt bytes 0x03).toNat = e.entry.val ∧
      (le16At bytes 0x04).toNat = e.source.toNat ∧ byteAt bytes 0x06 = e.channel ∧
      (e.length < 256 → (byteAt bytes 0x07).toNat = e.length) ∧ le16At bytes 0x08 = e.token.getD 0 ∧
      (byteAt bytes 0x0A).toNat = (e.reason.map CloseReason.code).getD 0 ∧
      (byteAt bytes 0x0B).toNat = (e.slot.map Fin.val).getD 0 ∧
      (lost < 65536 → (le16At bytes 0x0C).toNat = lost) ∧
      byteAt bytes 0x0E = 0 ∧ byteAt bytes 0x0F = 0 ∧ le32At bytes 0x10 = e.timestamp ∧
      (∀ i, 0x14 ≤ i → i ≤ 0x1E → byteAt bytes i = 0) ∧ (byteAt bytes 0x1F).toNat = phase.toNat ∧
      ∀ i, i < 64 → byteAt bytes (0x20 + i) = byteAt e.payload i := by
  have hkind : e.kind.code < 256 := by cases e.kind <;> decide
  have hframe : e.frameKind.code < 256 := by cases e.frameKind <;> decide
  have hreason : (e.reason.map CloseReason.code).getD 0 < 256 := by
    cases e.reason with
    | none => decide
    | some reason => cases reason <;> decide
  have hslot : (e.slot.map Fin.val).getD 0 < 256 := by
    cases e.slot with
    | none => decide
    | some slot => exact slot.isLt.trans (by decide)
  refine ⟨_, rfl, ?_, byteOf_toNat hkind, byteOf_toNat (e.port.isLt.trans (by decide)), byteOf_toNat hframe,
    byteOf_toNat (e.entry.isLt.trans (by decide)), ?_, rfl, byteOf_toNat, extractLsb'_append_low_high (e.token.getD 0),
    byteOf_toNat hreason, byteOf_toNat hslot, fun h => ?_, rfl, rfl, extractLsb'_append_four e.timestamp, fun i h1 h2 => ?_, ?_,
    fun i h => ?_⟩
  · rw [receiveRecord_eq, List.length_append, receiveHeader_length, length_fitTo]
  · have hsource : le16At (receiveRecord e phase lost) 0x04 = e.source.setWidth 16 := extractLsb'_append_low_high _
    rw [hsource, BitVec.toNat_setWidth]
    exact Nat.mod_eq_of_lt (e.source.isLt.trans (by decide))
  · rw [receiveRecord_eq, le16At_receiveHeader_lost, BitVec.toNat_ofNat]
    omega
  · rw [receiveRecord_eq, byteAt_receiveHeader_reserved e phase _ _ h1 h2]
  · show ((BitVec.ofBool phase).setWidth 8).toNat = _
    cases phase <;> rfl
  · rw [receiveRecord_eq, byteAt_append_right (receiveHeader_length e phase _), byteAt_fitTo h]

/-! ### The end of a completion record's write (R143, R134, R138) -/

/-- R143: a completion ring after its record has been written. -/
def CplRing.recorded (k : CplRing) (rest : List CplEntry) (now : Time) : CplRing :=
  { k with
    queue := rest, writing := none, reserved := k.reserved - 1, tail := nextSlot k.size k.tail,
    phase := nextPhase k.size k.tail k.phase, irq := (k.irq.posted now).1 }

/-- R174: outside HALTING nothing is waited for. -/
theorem settleHalt_of_not_halting (h : s.engine ≠ .halting) : s.settleHalt = s := by simp [State.settleHalt, h]

theorem completionWriteEnd_ok {c : CplId} {e : CplEntry} {rest : List CplEntry} {w : DmaWrite}
    (hl : s.live = true) (hq : (s.cpl c).queue = e :: rest) (hw : (s.cpl c).writing = some w) :
    exec (.completionWriteEnd c .ok) s = .next
      ((((s.setCpl c ((s.cpl c).recorded rest s.timeBase)).recordWritten e.ring).sendIf
        ((s.cpl c).irq.posted s.timeBase).2 (s.cpl c).irq.vector).settleHalt) := by
  have hexec : exec (.completionWriteEnd c .ok) s = execCompletionWriteEnd c .ok s := rfl
  rw [hexec, execCompletionWriteEnd]
  simp only [hq, hw, if_pos hl]
  rfl

theorem recordWritten_frame {t : State} {r : SubId} : (t.recordWritten r).engine = t.engine := by
  unfold State.recordWritten
  dsimp only
  split_ifs
  · obtain ⟨_, _, h⟩ := (t.setSub r .reset).finishAdmin_frame .success 0
    rw [h]
    rfl
  · rfl
  · rfl

theorem completionWriteEnd_plain {c : CplId} {e : CplEntry} {rest : List CplEntry} {w : DmaWrite}
    (he : s.engine = .running ∨ s.engine = .halted) (hq : (s.cpl c).queue = e :: rest) (hw : (s.cpl c).writing = some w) :
    exec (.completionWriteEnd c .ok) s = .next
      (((s.setCpl c ((s.cpl c).recorded rest s.timeBase)).recordWritten e.ring).sendIf
        ((s.cpl c).irq.posted s.timeBase).2 (s.cpl c).irq.vector) := by
  rw [completionWriteEnd_ok (State.live_iff.2 (by tauto)) hq hw, settleHalt_of_not_halting]
  obtain ⟨_, _, h⟩ := State.sendIf_frame (s := (s.setCpl c ((s.cpl c).recorded rest s.timeBase)).recordWritten e.ring)
    ((s.cpl c).irq.posted s.timeBase).2 (s.cpl c).irq.vector
  rw [h]
  show ((s.setCpl c ((s.cpl c).recorded rest s.timeBase)).recordWritten e.ring).engine ≠ _
  rw [recordWritten_frame]
  show s.engine ≠ _
  rcases he with he | he <;> rw [he] <;> nofun

/-- Settles O22: by whether the ring is being deleted. -/
theorem completionWriteEndReleasesRing : Obligations.CompletionWriteEndReleasesRing := by
  refine ⟨fun s c e rest w he hq hw hadmin hdraining => ?_, fun s c e rest w tag cmd he hq hw hadmin h0 ho hs hc => ?_⟩
  · dsimp only
    rw [completionWriteEnd_plain he hq hw, State.recordWritten, State.setCpl_admin, if_neg hadmin, State.setCpl_sub,
      if_neg hdraining]
    rfl
  · dsimp only
    have h0' : ((s.setCpl c ((s.cpl c).recorded rest s.timeBase)).setSub e.ring .reset).sub 0 = s.sub 0 :=
      State.setSub_sub_ne _ _ _ _ h0.symm
    rw [completionWriteEnd_plain he hq hw, State.recordWritten, State.setCpl_admin, if_pos hadmin, finishAdmin_of_staged (by rw [h0']; exact ho) (by rw [h0']; exact hs) (by rw [h0']; exact hc)]
    rfl

/-! ### The end of a receive record's write (R160, R164, R167) -/

/-- R160: a receive ring after its record has been written. -/
def RcvRing.recorded (k : RcvRing) (rest : List RcvEntry) (now : Time) : RcvRing :=
  { k with
    queue := rest, writing := none, tail := nextSlot k.size k.tail, phase := nextPhase k.size k.tail k.phase,
    irq := (k.irq.posted now).1 }

theorem receiveWriteEnd_ok {r : RcvId} {e : RcvEntry} {rest : List RcvEntry} {w : DmaWrite} {t : State}
    (hl : s.live = true) (hq : (s.rcv r).queue = e :: rest) (hw : (s.rcv r).writing = some w)
    (ht : t = (s.setRcv r ((s.rcv r).recorded rest s.timeBase)).sendIf ((s.rcv r).irq.posted s.timeBase).2 (s.rcv r).irq.vector) :
    exec (.receiveWriteEnd r .ok) s = .next
      (if (s.rcv r).closing ∧ rest = [] then
        if (t.dropRcv r).admin = .deletingRcv r then (t.dropRcv r).finishAdmin .success else t.dropRcv r
      else t) := by
  have hexec : exec (.receiveWriteEnd r .ok) s = execReceiveWriteEnd r .ok s := rfl
  rw [hexec, execReceiveWriteEnd, ht]
  simp only [hq, hw, if_pos hl]
  rfl

/-- R167, R168: the last record of a ring that is being deleted has been written, and a message may have been sent. -/
theorem deletion_ends {r : RcvId} {k : RcvRing} {t : State} {tag : BitVec 16} {cmd : AdminCmd}
    (ht : ∃ vectors messages, t = { s.setRcv r k with vectors, messages }) (hadmin : s.admin = .deletingRcv r)
    (ho : (s.sub 0).occupancy = .staged) (hs : (s.sub 0).staged = some (.admin tag cmd)) (hc : (s.sub 0).completion = some 0) :
    (if (t.dropRcv r).admin = .deletingRcv r then (t.dropRcv r).finishAdmin .success else t.dropRcv r) =
      commandEnds { t.setRcv r .reset with ports := s.ports.map (Port.forgetDiscard r) } tag .success := by
  obtain ⟨vectors, messages, rfl⟩ := ht
  refine (if_pos hadmin).trans ?_
  exact finishAdmin_of_staged (cmd := cmd) ho hs hc

/-- Settles O26: the write of the head, then its end by whether the ring is being deleted. -/
theorem receiveRecordsAreWritten : Obligations.ReceiveRecordsAreWritten := by
  refine ⟨fun s r e rest hl hq hw => ?_, fun s r e rest w hl hq hw => ⟨fun h => ?_, fun tag cmd hclosing hrest hadmin ho hs hc => ?_⟩⟩
  · obtain ⟨bytes, hbytes, hfields⟩ := receiveRecord_bytes e (s.rcv r).phase (s.rcv r).lost
    refine ⟨bytes, ?_, hfields⟩
    have hexec : exec (.receiveWriteStart r) s = execReceiveWriteStart r s := rfl
    rw [hexec, execReceiveWriteStart]
    simp only [hq, hw, if_pos hl, RcvRing.recordWrite, hbytes]
  · rw [receiveWriteEnd_ok hl hq hw rfl, if_neg]
    · rfl
    · rintro ⟨hclosing, hrest⟩
      rcases h with h | h
      · rw [h] at hclosing; cases hclosing
      · exact h hrest
  · have hsend := State.sendIf_frame (s := s.setRcv r ((s.rcv r).recorded rest s.timeBase))
      ((s.rcv r).irq.posted s.timeBase).2 (s.rcv r).irq.vector
    rw [receiveWriteEnd_ok hl hq hw rfl, if_pos ⟨hclosing, hrest⟩]
    exact congrArg _ (deletion_ends hsend hadmin ho hs hc)

end Sys2Proof.Machine
end

section
/-!
PROOFS. Coalescing (O23), claims at posting (O27) and receive rings made and taken away (O28).
-/
namespace Sys2Proof.Machine
open Sys2Proof.Safety

variable {s : State} {tag : BitVec 16} {r : RcvId} {q : Irq} {now : Time}

/-! ### What a posted record does (R148) -/

theorem posted_fires (hs : q.state = .armed ∧ q.threshold = 1 ∨ q.state = .counting ∧ q.count + 1 = q.threshold) :
    q.posted now = ({ q with state := .sent, count := 0, timer := none }, true) := by
  unfold Irq.posted
  rcases hs with ⟨hs, ht⟩ | ⟨hs, ht⟩ <;> simp only [hs, if_pos ht] <;> rfl

theorem posted_starts (hs : q.state = .armed) (ht : q.threshold ≠ 1) :
    q.posted now =
      ({ q with state := .counting, count := 1, timer := if 0 < q.delay then some (now + BitVec.ofNat 32 q.delay) else none },
        false) := by
  unfold Irq.posted
  simp only [hs, if_neg ht, Nat.pos_iff_ne_zero, ite_not]
  rfl

theorem posted_counts (hs : q.state = .counting) (ht : q.count + 1 ≠ q.threshold) :
    q.posted now = ({ q with count := q.count + 1 }, false) := by
  unfold Irq.posted
  simp only [hs, if_neg ht]

theorem posted_sent (hs : q.state = .sent) : q.posted now = (q, false) := by
  unfold Irq.posted
  simp only [hs]

/-- Settles O23: the interrupt state by itself, then the timer of either kind of ring at its moment. -/
theorem coalescingDecidesMessages : Obligations.CoalescingDecidesMessages := by
  refine ⟨fun q now => ⟨fun hs ht => posted_fires (.inl ⟨hs, ht⟩), posted_starts, fun hs ht => posted_fires (.inr ⟨hs, ht⟩),
    posted_counts, posted_sent⟩, fun s due hl hdue => ⟨fun c hs ht => ?_, fun r hs ht => ?_⟩⟩
  · have htime : ({ s with timeBase := reach s.timeBase due } : State) = s := by rw [← hdue, reach_self]
    have hexec : exec (.coalescingTimer (.completion c)) s = execCoalescingTimer (.completion c) s := rfl
    rw [hexec, execCoalescingTimer]
    simp only [hs, ht, if_pos hl, htime]
    rfl
  · have htime : ({ s with timeBase := reach s.timeBase due } : State) = s := by rw [← hdue, reach_self]
    have hexec : exec (.coalescingTimer (.receive r)) s = execCoalescingTimer (.receive r) s := rfl
    rw [hexec, execCoalescingTimer]
    simp only [hs, ht, if_pos hl, htime]
    rfl

/-! ### A claim at posting (R158, R163) -/

theorem answer_granted {k : RcvRing} (hs : k.state = .active) (hc : k.closing = false)
    (hroom : k.unconsumed + (k.held + k.queue.length) < k.size - 1) : k.answer = .granted := by
  refine k.answer_granted_iff.2 ⟨hs, hc, ?_⟩
  unfold RcvRing.free RcvRing.reserved
  omega

theorem answer_full {k : RcvRing} (hs : k.state = .active) (hc : k.closing = false)
    (hroom : k.size - 1 ≤ k.unconsumed + (k.held + k.queue.length)) : k.answer = .full := by
  unfold RcvRing.answer
  rw [if_neg (by simp [hs, hc]), if_neg]
  unfold RcvRing.free RcvRing.reserved
  omega

theorem answer_absent {k : RcvRing} (h : k.state = .absent ∨ k.closing = true) : k.answer = .absent := if_pos h

/-- Settles O27: by the ring's answer. -/
theorem claimAtPostingAnswers : Obligations.ClaimAtPostingAnswers := by
  intro s r e
  refine ⟨fun hs hc hroom => ?_, fun hs hc hroom hlost => ?_, fun h => ?_⟩
  · rw [State.claimAtPosting, answer_granted hs hc hroom]
  · rw [State.claimAtPosting, answer_full hs hc hroom]
    dsimp only
    rw [State.countLost, saturate_eq_min (cap := Config.lostCap) hlost]
    rfl
  · rw [State.claimAtPosting, answer_absent h]

/-! ### CREATE_RECEIVE_RING by its first check that fails (R166) -/

/-- A receive ring's update leaves the command that ring 0 carries. -/
theorem carries_setRcv {cmd : AdminCmd} {x : RcvRing} (h : Carries s tag cmd) : Carries (s.setRcv r x) tag cmd := h

section
variable {vector threshold policy size delay : Nat} {base : Addr}

theorem exec_createReceiveRing_eq : exec .createReceiveRing s = execCreateReceiveRing s := rfl

/-- R157, R166: the context of a receive ring that has just been made. -/
def newRcvRing (size : Nat) (base : Addr) (policy : FullPolicy) (vector : VecId) (threshold delay : Nat) : RcvRing :=
  { RcvRing.reset with state := .active, base, size, policy, irq := { Irq.reset with vector, threshold, delay } }

/-- R166: the size and the base, the policy, the vector and the threshold pass their checks. -/
def ReceiveCreationPasses (vector threshold policy size : Nat) (base : Addr) : Prop :=
  RingPlace size base ∧ policy ≤ 1 ∧ vector ≤ 15 ∧ 1 ≤ threshold ∧ threshold ≤ 255

theorem FullPolicy.le_of_ofCode {y : FullPolicy} (h : FullPolicy.ofCode policy = some y) : policy ≤ 1 :=
  match policy, h with
  | 0, _ | 1, _ => by decide
  | _ + 2, h => nomatch h

theorem FullPolicy.ofCode_of_le (h : policy ≤ 1) :
    FullPolicy.ofCode policy = some (if policy = 0 then .refuseWhenFull else .discardWhenFull) := by
  interval_cases policy <;> rfl

theorem createReceiveRing_ring_above {ring : Nat}
    (h : Carries s tag (.createReceiveRing ring vector threshold policy size delay base)) (hring : 16 ≤ ring) :
    exec .createReceiveRing s = .next (commandEnds s tag .badParameter) := by
  rw [exec_createReceiveRing_eq, execCreateReceiveRing, freshCmd_of_carries h]
  simp only [numbered_eq_none hring, finishAdmin_of_carries h]

section
variable (h : Carries s tag (.createReceiveRing r.val vector threshold policy size delay base))
include h

theorem createReceiveRing_in_use (hs : (s.rcv r).state ≠ .absent) :
    exec .createReceiveRing s = .next (commandEnds s tag .inUse) := by
  rw [exec_createReceiveRing_eq, execCreateReceiveRing, freshCmd_of_carries h]
  simp only [numbered_val, if_pos hs, finishAdmin_of_carries h]

theorem createReceiveRing_fails (hs : (s.rcv r).state = .absent)
    (hfail : ¬ ReceiveCreationPasses vector threshold policy size base) :
    exec .createReceiveRing s = .next (commandEnds s tag .badParameter) := by
  rw [exec_createReceiveRing_eq, execCreateReceiveRing, freshCmd_of_carries h]
  simp only [numbered_val, if_neg (not_not_intro hs), finishAdmin_of_carries h]
  split
  · rfl
  next hplace =>
    have hplace : RingPlace size base := legalRing_iff.1 (by simpa using hplace)
    split
    next y v hy hv =>
      have hpolicy := FullPolicy.le_of_ofCode hy
      have hvector : vector ≤ 15 := numbered_eq_some_iff.1 hv ▸ Nat.le_of_lt_succ v.isLt
      rw [if_neg fun hthreshold => hfail ⟨hplace, hpolicy, hvector, hthreshold⟩]
    next => rfl

end

theorem createReceiveRing_passes {v : VecId}
    (h : Carries s tag (.createReceiveRing r.val v.val threshold policy size delay base)) (hs : (s.rcv r).state = .absent)
    (hplace : RingPlace size base) (hpolicy : policy ≤ 1) (hlow : 1 ≤ threshold) (hhigh : threshold ≤ 255) :
    exec .createReceiveRing s =
      .next
        (commandEnds
          (s.setRcv r (newRcvRing size base (if policy = 0 then .refuseWhenFull else .discardWhenFull) v threshold delay))
          tag .success (BitVec.ofNat 32 r.val)) := by
  rw [exec_createReceiveRing_eq, execCreateReceiveRing, freshCmd_of_carries h]
  simp only [numbered_val, if_neg (not_not_intro hs), legalRing_iff.2 hplace, Bool.not_true, if_neg Bool.false_ne_true,
    FullPolicy.ofCode_of_le hpolicy, if_pos (And.intro hlow hhigh), finishAdmin_of_carries (carries_setRcv h)]
  rfl

end

/-! ### DELETE_RECEIVE_RING by what it finds (R167) -/

/-- R167: a valid entry names the ring in the field that its action uses. -/
theorem MatchEntry.namesRing_iff {e : MatchEntry} : e.namesRing r = true ↔
    e.valid = true ∧
      (((e.action = some .deliver ∨ e.action = some .defer) ∧ e.targetRing.toNat = r.val) ∨
        ((e.action = some .replySlot ∨ e.action = some .slotWrite) ∧ ∃ b, e.notifyRing = some b ∧ b.toNat = r.val)) := by
  unfold MatchEntry.namesRing
  rw [Bool.and_eq_true]
  refine and_congr_right fun _ => ?_
  cases e.action with
  | none => simp
  | some a => cases a <;> simp [Option.any_eq_true]

/-- R167: an entry of the match table names the ring. -/
def RcvNamed (s : State) (r : RcvId) : Prop := ∃ i : MatchId, (s.entry i).namesRing r = true

/-- R167: an answer window holds a query of the ring. -/
def RcvQueried (s : State) (r : RcvId) : Prop :=
  ∃ (p : PortId) (q : QueryDetails), (s.port p).window.query = some q ∧ q.ring = r

theorem entries_any_iff : s.entries.any (·.namesRing r) = true ↔ RcvNamed s r := by
  rw [Vector.any_eq_true]
  exact ⟨fun ⟨i, hi, h⟩ => ⟨⟨i, hi⟩, h⟩, fun ⟨i, h⟩ => ⟨i, i.isLt, h⟩⟩

theorem ports_any_iff : s.ports.any (fun x => x.window.query.any (·.ring == r)) = true ↔ RcvQueried s r := by
  rw [Vector.any_eq_true]
  simp only [Option.any_eq_true, beq_iff_eq]
  exact ⟨fun ⟨p, hp, q, h⟩ => ⟨⟨p, hp⟩, q, h⟩, fun ⟨p, q, h⟩ => ⟨p, p.isLt, q, h⟩⟩

theorem exec_deleteReceiveRing_eq : exec .deleteReceiveRing s = execDeleteReceiveRing s := rfl

theorem deleteReceiveRing_ring_above {ring : Nat} (h : Carries s tag (.deleteReceiveRing ring)) (hring : 16 ≤ ring) :
    exec .deleteReceiveRing s = .next (commandEnds s tag .badParameter) := by
  rw [exec_deleteReceiveRing_eq, execDeleteReceiveRing, freshCmd_of_carries h]
  simp only [numbered_eq_none hring, finishAdmin_of_carries h]

section
variable (h : Carries s tag (.deleteReceiveRing r.val))
include h

theorem deleteReceiveRing_absent (hs : (s.rcv r).state = .absent) :
    exec .deleteReceiveRing s = .next (commandEnds s tag .notFound) := by
  rw [exec_deleteReceiveRing_eq, execDeleteReceiveRing, freshCmd_of_carries h]
  simp only [numbered_val, if_pos hs, finishAdmin_of_carries h]

theorem deleteReceiveRing_in_use (hs : (s.rcv r).state ≠ .absent) (hn : RcvNamed s r ∨ RcvQueried s r) :
    exec .deleteReceiveRing s = .next (commandEnds s tag .inUse) := by
  rw [exec_deleteReceiveRing_eq, execDeleteReceiveRing, freshCmd_of_carries h]
  simp only [numbered_val, if_neg hs, finishAdmin_of_carries h]
  rcases hn with hn | hn
  · rw [if_pos (entries_any_iff.2 hn)]
  · rw [if_pos (ports_any_iff.2 hn), ite_self]

section
variable (hs : (s.rcv r).state ≠ .absent) (hn : ¬ RcvNamed s r) (hq : ¬ RcvQueried s r)
include hs hn hq

theorem deleteReceiveRing_drops (hqueue : (s.rcv r).queue = []) (hw : (s.rcv r).writing = none) :
    exec .deleteReceiveRing s =
      .next
        (commandEnds
          { s.setRcv r .reset with ports := (s.ports.map (Port.cancelReservation r)).map (Port.forgetDiscard r) } tag .success) := by
  have hset : ∀ x, (({ s with ports := s.ports.map (Port.cancelReservation r) } : State).setRcv r x).dropRcv r =
      { s.setRcv r .reset with ports := (s.ports.map (Port.cancelReservation r)).map (Port.forgetDiscard r) } := fun x => by
    simp [State.dropRcv, State.setRcv]
  have hc : Carries
      ({ s.setRcv r .reset with ports := (s.ports.map (Port.cancelReservation r)).map (Port.forgetDiscard r) } : State) tag
      (.deleteReceiveRing r.val) := h
  rw [exec_deleteReceiveRing_eq, execDeleteReceiveRing, freshCmd_of_carries h]
  simp only [numbered_val, if_neg hs, if_neg (mt entries_any_iff.1 hn), if_neg (mt ports_any_iff.1 hq),
    if_pos (And.intro hqueue hw), hset,
    finishAdmin_of_carries hc]

theorem deleteReceiveRing_waits (hqueue : (s.rcv r).queue ≠ []) :
    exec .deleteReceiveRing s =
      .next
        { s.setRcv r { s.rcv r with held := 0, closing := true } with
          ports := s.ports.map (Port.cancelReservation r), admin := .deletingRcv r } := by
  rw [exec_deleteReceiveRing_eq, execDeleteReceiveRing, freshCmd_of_carries h]
  simp only [numbered_val, if_neg hs, if_neg (mt entries_any_iff.1 hn), if_neg (mt ports_any_iff.1 hq),
    if_neg (fun hboth : _ ∧ _ => hqueue hboth.1)]
  rfl

end

end

/-! ### The service records after a deletion (R168) -/

section
variable {x : Port} {f : FrameRec} {v : ServiceRec}

theorem Port.service_of_frame (hf : x.frame = some f) (hv : f.service = some v) : x.service = some v := by
  simp [Port.service, hf, hv]

theorem Port.setService_of_frame (hf : x.frame = some f) (w : ServiceRec) :
    x.setService w = { x with frame := some { f with service := some w } } := by
  simp [Port.setService, hf]

theorem cancelReservation_of_service_none (h : x.service = none) : x.cancelReservation r = x := by
  simp [Port.cancelReservation, h]

theorem forgetDiscard_of_service_none (h : x.service = none) : x.forgetDiscard r = x := by
  simp [Port.forgetDiscard, h]

theorem discards_iff : (v.discard && (v.hit.map fun h => ringOfByte h.entry.targetRing) == some r) = true ↔
    v.discard = true ∧ ∃ h, v.hit = some h ∧ h.entry.targetRing.toNat % 16 = r.val := by
  have hring : ∀ b : Byte, ringOfByte b = r ↔ b.toNat % 16 = r.val := fun b => by
    rw [← Fin.val_inj]
    simp [ringOfByte]
  simp only [Bool.and_eq_true, beq_iff_eq, Option.map_eq_some_iff, hring]

end

/-- Settles O28: the checks in their order, and each part of a service record. -/
theorem receiveRingsCreatedAndDeleted : Obligations.ReceiveRingsCreatedAndDeleted := by
  refine ⟨fun s tag ring vector threshold policy size delay base h => ⟨createReceiveRing_ring_above h, ?_⟩,
    fun s tag ring h => ⟨deleteReceiveRing_ring_above h, ?_⟩, fun r x => ⟨fun hv => ?_, fun f v hf hv => ?_⟩⟩
  · rintro r rfl
    refine ⟨fun hs => createReceiveRing_in_use h (RingState.ne_absent_of_active hs), fun hs hbad => createReceiveRing_fails h hs ?_,
      fun v hs hplace hpolicy hv hlow hhigh => ?_⟩
    · rintro ⟨hplace, hpolicy, hvector, hlow, hhigh⟩
      have := hbad.resolve_left (not_not_intro hplace)
      omega
    · subst hv
      exact createReceiveRing_passes h hs hplace hpolicy hlow hhigh
  · rintro r rfl
    simp only [← MatchEntry.namesRing_iff]
    exact ⟨deleteReceiveRing_absent h, fun hs => deleteReceiveRing_in_use h (RingState.ne_absent_of_active hs),
      fun hs hn hq => deleteReceiveRing_drops h (RingState.ne_absent_of_active hs) hn hq,
      fun hs hn hq => deleteReceiveRing_waits h (RingState.ne_absent_of_active hs) hn hq⟩
  · exact ⟨cancelReservation_of_service_none hv, forgetDiscard_of_service_none hv⟩
  · have hservice := Port.service_of_frame hf hv
    refine ⟨fun hr => ?_, fun hr => ?_, fun hd hr => ?_, fun hn => ?_⟩
    · simp only [Port.cancelReservation, hservice, if_pos hr, Port.setService_of_frame hf]
    · simp only [Port.cancelReservation, hservice, if_neg hr]
    · simp only [Port.forgetDiscard, hservice]
      rw [if_pos (discards_iff.2 ⟨hd, hr⟩), Port.setService_of_frame hf]
    · simp only [Port.forgetDiscard, hservice]
      rw [if_neg]
      rw [discards_iff]
      rintro ⟨hd, hr⟩
      rcases hn with hn | hn
      · rw [hn] at hd; cases hd
      · exact hn hr

end Sys2Proof.Machine
end

section
/-!
PROOFS. READ_PORT_STATS (O32), and the layouts that the device reads with the numbers of the code tables (O16).
-/
namespace Sys2Proof.Machine
open Sys2Proof.Safety

variable {s : State} {tag : BitVec 16} {p : PortId} {clear : Bool} {buffer : Addr}

/-! ### READ_PORT_STATS (R41) -/

/-- 11.6: the 36 bytes of the statistics. -/
theorem statsBytes_fields (x : Stats) :
    (statsBytes x).length = 36 ∧ le32At (statsBytes x) 0x00 = x.framesStarted ∧
      le32At (statsBytes x) 0x04 = x.arbitrationLost ∧ le32At (statsBytes x) 0x08 = x.attemptsFailed ∧
      le32At (statsBytes x) 0x0C = x.framesServed ∧ le32At (statsBytes x) 0x10 = x.inboundRefused ∧
      le32At (statsBytes x) 0x14 = x.framesBroken ∧ le32At (statsBytes x) 0x18 = x.clashes ∧
      le32At (statsBytes x) 0x1C = x.stuckEvents ∧ le32At (statsBytes x) 0x20 = x.healthUntracked :=
  ⟨rfl, extractLsb'_append_four _, extractLsb'_append_four _, extractLsb'_append_four _, extractLsb'_append_four _,
    extractLsb'_append_four _, extractLsb'_append_four _, extractLsb'_append_four _, extractLsb'_append_four _,
    extractLsb'_append_four _⟩

theorem exec_readPortStats_eq : exec .readPortStats s = execReadPortStats s := rfl

theorem readPortStats_port_above {port : Nat} (h : Carries s tag (.readPortStats port clear buffer)) (hp : 4 ≤ port) :
    exec .readPortStats s = .next (commandEnds s tag .badParameter) := by
  rw [exec_readPortStats_eq, execReadPortStats, freshCmd_of_carries h]
  simp only [numbered_eq_none hp, finishAdmin_of_carries h]

section
variable (h : Carries s tag (.readPortStats p.val clear buffer))
include h

theorem readPortStats_unaligned (hb : buffer.toNat % 4 ≠ 0) :
    exec .readPortStats s = .next (commandEnds s tag .badParameter) := by
  rw [exec_readPortStats_eq, execReadPortStats, freshCmd_of_carries h]
  simp only [numbered_val, if_pos (show (!alignedTo 4 buffer) = true by simpa [alignedTo] using hb), finishAdmin_of_carries h]

theorem readPortStats_writes (hb : buffer.toNat % 4 = 0) :
    exec .readPortStats s = .next
      { s with admin := .statsWrite p clear (s.port p).stats { address := buffer, bytes := statsBytes (s.port p).stats } } := by
  rw [exec_readPortStats_eq, execReadPortStats, freshCmd_of_carries h]
  simp only [numbered_val, if_neg (show ¬ (!alignedTo 4 buffer) = true by simpa [alignedTo] using hb)]

end

theorem State.setPort_self (s : State) (p : PortId) : s.setPort p (s.port p) = s := by
  simp [State.setPort, State.port]

section
variable {snapshot : Stats} {w : DmaWrite} {cmd : AdminCmd} (hl : s.live = true) (ha : s.admin = .statsWrite p clear snapshot w)
  (ho : (s.sub 0).occupancy = .staged) (hs : (s.sub 0).staged = some (.admin tag cmd)) (hc : (s.sub 0).completion = some 0)
include hl ha ho hs hc

theorem statsWriteEnd_fault : exec (.statsWriteEnd .fault) s = .next (commandEnds s tag .storeFault) := by
  have hexec : exec (.statsWriteEnd .fault) s = execStatsWriteEnd .fault s := rfl
  rw [hexec, execStatsWriteEnd]
  simp only [ha, if_pos hl]
  exact congrArg _ (finishAdmin_of_staged (cmd := cmd) ho hs hc)

theorem statsWriteEnd_ok :
    exec (.statsWriteEnd .ok) s = .next
      (commandEnds
        (s.setPort p { s.port p with stats := if clear then (s.port p).stats.less snapshot else (s.port p).stats })
        tag .success) := by
  have hexec : exec (.statsWriteEnd .ok) s = execStatsWriteEnd .ok s := rfl
  rw [hexec, execStatsWriteEnd]
  simp only [ha, if_pos hl]
  exact congrArg _ (finishAdmin_of_staged (cmd := cmd) ho hs hc)

end

/-- Settles O32: the checks, the bytes of the snapshot, and the end of its write. -/
theorem portStatisticsRead : Obligations.PortStatisticsRead := by
  refine fun s tag port clear buffer => ⟨fun h => ⟨?bad, ?writes⟩, fun p snapshot w cmd hl ha ho hs hc => ?ends⟩
  case bad =>
    rintro hbad
    by_cases hp : 4 ≤ port
    · exact readPortStats_port_above h hp
    · have hport : ((⟨port, by omega⟩ : PortId) : Nat) = port := rfl
      exact readPortStats_unaligned (p := ⟨port, by omega⟩) h (hbad.resolve_left (by omega))
  case writes =>
    rintro p rfl hb
    exact ⟨_, readPortStats_writes h hb, statsBytes_fields _⟩
  case ends =>
    refine ⟨statsWriteEnd_fault hl ha ho hs hc, fun hclear => ?_, fun hclear => ?_⟩ <;> subst hclear
    · rw [statsWriteEnd_ok hl ha ho hs hc]
      exact congrArg (fun t => Host.Outcome.next (commandEnds t tag .success)) (s.setPort_self p)
    · exact statsWriteEnd_ok hl ha ho hs hc

/-! ### Little-endian numbers (R185) -/

section
variable {bytes : List Byte} {i n : Nat}

theorem le16At_toNat : (le16At bytes i).toNat = (byteAt bytes i).toNat + 256 * (byteAt bytes (i + 1)).toNat := by
  have hlow := (byteAt bytes i).isLt
  rw [le16At, BitVec.toNat_append, ← Nat.shiftLeft_add_eq_or_of_lt hlow, Nat.shiftLeft_eq]
  omega

theorem le32At_toNat : (le32At bytes i).toNat = (le16At bytes i).toNat + 2 ^ 16 * (le16At bytes (i + 2)).toNat := by
  have hlow := (le16At bytes i).isLt
  rw [le32At, BitVec.toNat_append, ← Nat.shiftLeft_add_eq_or_of_lt hlow, Nat.shiftLeft_eq]
  omega

theorem le64At_toNat : (le64At bytes i).toNat = (le32At bytes i).toNat + 2 ^ 32 * (le32At bytes (i + 4)).toNat := by
  have hlow := (le32At bytes i).isLt
  rw [le64At, BitVec.toNat_append, ← Nat.shiftLeft_add_eq_or_of_lt hlow, Nat.shiftLeft_eq]
  omega

theorem getLsbD_zero_eq (b : Byte) : b.getLsbD 0 = (b.toNat % 2 == 1) := by
  rw [BitVec.getLsbD, Nat.testBit_zero]
  rfl

theorem getLsbD_one_eq (b : Byte) : b.getLsbD 1 = (b.toNat / 2 % 2 == 1) := by
  rw [BitVec.getLsbD, Nat.testBit_eq_decide_div_mod_eq]
  rfl

/-! ### Transfer descriptors (11.3, 11.5) -/

theorem decodeXfer_isSome_iff :
    (decodeXfer bytes).isSome = true ↔ 1 ≤ (byteAt bytes 0x02).toNat ∧ (byteAt bytes 0x02).toNat ≤ 5 := by
  rw [decodeXfer, Option.isSome_map, XferKind.ofCode]
  split
  case h_6 h1 h2 h3 h4 h5 => simp only [Option.isSome_none, Bool.false_eq_true, false_iff]; grind
  all_goals simp only [Option.isSome_some, true_iff]; omega

/-- 11.5: the kind of a code that is one. -/
theorem XferKind.ofCode_eq {code : Byte} {kind : XferKind} (h : XferKind.ofCode code = some kind) :
    kind = if code.toNat = 1 then .marker else if code.toNat = 2 then .send else if code.toNat = 3 then .query
      else if code.toNat = 4 then .notice else .answer := by
  unfold XferKind.ofCode at h
  split at h <;> simp_all

/-! ### Code tables (11.5) -/

theorem Action.ofCode_eq (n : Nat) : Action.ofCode n =
    if n = 1 then some .deliver else if n = 2 then some .replySlot else if n = 3 then some .slotWrite
    else if n = 4 then some .defer else if n = 5 then some .refuse else none := by
  unfold Action.ofCode
  split <;> simp_all

theorem Rate.ofCode_eq (n : Nat) : Rate.ofCode n =
    if n = 0 then some .k125 else if n = 1 then some .k250 else if n = 2 then some .k500 else if n = 3 then some .k1000
    else none := by
  unfold Rate.ofCode
  split <;> simp_all

theorem FullPolicy.ofCode_eq (n : Nat) :
    FullPolicy.ofCode n = if n = 0 then some .refuseWhenFull else if n = 1 then some .discardWhenFull else none := by
  unfold FullPolicy.ofCode
  split <;> simp_all

/-! ### Administration descriptors (11.4) -/

theorem decodeAdmin_unknown (h : (byteAt bytes 0x02).toNat < 0x10 ∨ 0x20 < (byteAt bytes 0x02).toNat) :
    decodeAdmin bytes = .unknown (byteAt bytes 0x02) := by
  unfold decodeAdmin
  split
  case h_18 => rfl
  all_goals omega

/-- The number that two bytes hold, the lowest first; then four and eight. -/
def halfAt (bytes : List Byte) (i : Nat) : Nat := (byteAt bytes i).toNat + 256 * (byteAt bytes (i + 1)).toNat
def wordAt (bytes : List Byte) (i : Nat) : Nat := halfAt bytes i + 2 ^ 16 * halfAt bytes (i + 2)
def longAt (bytes : List Byte) (i : Nat) : Nat := wordAt bytes i + 2 ^ 32 * wordAt bytes (i + 4)

theorem le32At_eq_wordAt : (le32At bytes i).toNat = wordAt bytes i := by
  rw [le32At_toNat, le16At_toNat, le16At_toNat]
  rfl

theorem le64At_eq_longAt : (le64At bytes i).toNat = longAt bytes i := by
  rw [le64At_toNat, le32At_eq_wordAt, le32At_eq_wordAt]
  rfl

theorem le16At_eq_ofNat : le16At bytes i = BitVec.ofNat 16 (halfAt bytes i) := by
  refine BitVec.eq_of_toNat_eq ?_
  rw [BitVec.toNat_ofNat, le16At_toNat]
  exact (Nat.mod_eq_of_lt (by have := (byteAt bytes i).isLt; have := (byteAt bytes (i + 1)).isLt; omega)).symm

theorem eq_le32At {v : Word32} (h : v.toNat = wordAt bytes i) : v = le32At bytes i :=
  BitVec.eq_of_toNat_eq (h.trans le32At_eq_wordAt.symm)

theorem eq_le64At {v : Addr} (h : v.toNat = longAt bytes i) : v = le64At bytes i :=
  BitVec.eq_of_toNat_eq (h.trans le64At_eq_longAt.symm)

theorem setWidth_eq_ofNat (b : Byte) (w : Nat) : b.setWidth w = BitVec.ofNat w b.toNat := by
  refine BitVec.eq_of_toNat_eq ?_
  rw [BitVec.toNat_setWidth, BitVec.toNat_ofNat]

/-- 11.3: the fields of a transfer descriptor. -/
theorem decodeXfer_fields {d : Desc} (h : decodeXfer bytes = some d) :
    d.tag.toNat = halfAt bytes 0x00 ∧
    d.kind = (if (byteAt bytes 0x02).toNat = 1 then .marker else if (byteAt bytes 0x02).toNat = 2 then .send
      else if (byteAt bytes 0x02).toNat = 3 then .query else if (byteAt bytes 0x02).toNat = 4 then .notice else .answer) ∧
    (d.probe = true ↔ (byteAt bytes 0x03).toNat % 2 = 1) ∧ (d.decline = true ↔ (byteAt bytes 0x03).toNat / 2 % 2 = 1) ∧
    d.dest.toNat = halfAt bytes 0x04 % 1024 ∧ d.channel.toNat = (byteAt bytes 0x06).toNat ∧
    d.outLength = (byteAt bytes 0x07).toNat ∧ d.replyCapacity = (byteAt bytes 0x08).toNat ∧
    d.attemptLimit = (byteAt bytes 0x09).toNat % 16 ∧ d.deadline = halfAt bytes 0x0A ∧ d.token.toNat = halfAt bytes 0x0C ∧
    d.outBuffer.toNat = longAt bytes 0x10 ∧ d.replyBuffer.toNat = longAt bytes 0x18 := by
  obtain ⟨kind, hkind, rfl⟩ := Option.map_eq_some_iff.1 h
  refine ⟨le16At_toNat, XferKind.ofCode_eq hkind, ?_, ?_, ?_, rfl, rfl, rfl, ?_, le16At_toNat, le16At_toNat, le64At_eq_longAt,
    le64At_eq_longAt⟩
  · show (byteAt bytes 0x03).getLsbD 0 = true ↔ _
    rw [getLsbD_zero_eq, beq_iff_eq]
  · show (byteAt bytes 0x03).getLsbD 1 = true ↔ _
    rw [getLsbD_one_eq, beq_iff_eq]
  · exact (BitVec.toNat_setWidth 10 _).trans (congrArg (· % 1024) le16At_toNat)
  · exact BitVec.toNat_setWidth 4 _

/-- Settles O16: each layout by its definition, with the fields as numbers. -/
theorem descriptorLayoutsAndCodes : Obligations.DescriptorLayoutsAndCodes := by
  refine ⟨fun bytes => ⟨⟨le64At_eq_longAt, le16At_toNat, le64At_eq_longAt, le16At_toNat, rfl, rfl, le16At_toNat⟩,
    decodeXfer_isSome_iff, fun d hd => decodeXfer_fields hd, le16At_toNat, ?admin⟩, rfl, rfl, rfl, rfl, rfl, rfl, rfl,
    Action.ofCode_eq, Rate.ofCode_eq, FullPolicy.ofCode_eq⟩
  case admin =>
    refine ⟨fun hc base hb => ?_, fun hc => ?_, fun hc base hb => ?_, fun hc => ?_, fun hc data address hd ha => ?_,
      fun hc base hb => ?_, fun hc => ?_, fun hc => ?_, fun hc => ?_, fun hc buffer hb => ?_, fun hc => ?_, fun hc => ?_,
      fun hc buffer hb => ?_, fun hc => ?_, fun hc => ?_, fun hc buffer hb => ?_, fun hc => ?_, decodeAdmin_unknown⟩
    case refine_1 | refine_3 | refine_6 =>
      simp only [decodeAdmin, show (byteAt bytes 0x02).toNat = _ from hc, eq_le64At hb, le16At_toNat]
    case refine_5 =>
      simp only [decodeAdmin, show (byteAt bytes 0x02).toNat = _ from hc, eq_le32At hd, eq_le64At ha, getLsbD_zero_eq]
    case refine_10 | refine_13 | refine_16 =>
      simp only [decodeAdmin, show (byteAt bytes 0x02).toNat = _ from hc, eq_le64At hb, getLsbD_zero_eq]
    case refine_11 =>
      simp only [decodeAdmin, show (byteAt bytes 0x02).toNat = _ from hc, le16At_toNat, getLsbD_zero_eq, setWidth_eq_ofNat]
    case refine_17 =>
      simp only [decodeAdmin, show (byteAt bytes 0x02).toNat = _ from hc, le16At_eq_ofNat, halfAt]
    all_goals simp only [decodeAdmin, show (byteAt bytes 0x02).toNat = _ from hc, le16At_toNat]

end

end Sys2Proof.Machine
end

section
/-!
PROOFS. FAILED (O11, O12): what a command does in it. A command that is no happening at a port touches the notes and the setup
address alone; a happening touches the port that is leaving, which goes OFF or goes on within its byte or slot.
-/
namespace Sys2Proof.Machine
open Sys2Proof.Safety

variable {s t : State} {p : PortId} {c : Instr} {f : FrameRec}

/-! ### Commands that are no happening at a port (R170, R181) -/

theorem live_of_failed (he : s.engine = .failed) : s.live = false := by simp [State.live, he]

theorem freshCmd_of_failed (he : s.engine = .failed) : s.freshCmd = none := by simp [State.freshCmd, live_of_failed he]

/-- R181: in FAILED such a command has no effect but that of a register write. -/
theorem exec_elsewhere_of_failed (he : s.engine = .failed) (hc : resets c = false) (hp : happensAt c = none) :
    ∃ notes setupAddress, exec c s = .next { s with notes, setupAddress } := by
  have hl := live_of_failed he
  have hfresh := freshCmd_of_failed he
  have same : ∀ {c : Instr}, exec c s = .next s → ∃ notes setupAddress, exec c s = .next { s with notes, setupAddress } :=
    fun h => ⟨_, _, h⟩
  cases c with
  | enable => exact ⟨_, _, congrArg _ (if_neg (by simp [he]))⟩
  | halt => exact ⟨_, _, congrArg _ (if_neg (by simp [he]))⟩
  | resume => exact ⟨_, _, congrArg _ (if_neg (by simp [he]))⟩
  | clearNotes => exact ⟨_, _, rfl⟩
  | unknownEngineCommand code =>
    by_cases h : isEngineCommandCode code = true
    · exact same (congrArg _ (if_pos h))
    · exact ⟨_, _, congrArg _ (if_neg h)⟩
  | setupAddressWrite => exact ⟨_, _, rfl⟩
  | post word => exact ⟨_, _, congrArg _ (if_neg (by simp [hl]))⟩
  | ack word =>
    have hack : exec (.ack word) s = .next s.rejectAck := by
      simp only [exec, execAck, ackTaken, hl, Bool.false_and, Bool.false_eq_true, if_false]
      split <;> rfl
    exact ⟨_, _, hack⟩
  | setupReadEnd => exact same (by simp [exec, execSetupReadEnd, he])
  | fetchStart r =>
    refine same ?_
    simp only [exec, execFetchStart]
    split
    · simp [State.mayFetch, he]
    · rfl
  | slotReadEnd => exact same (by simp [exec, execSlotReadEnd, hl])
  | payloadReadEnd => exact same (by simp [exec, execPayloadReadEnd, hl])
  | schedulerChoice => exact same (by simp [exec, execSchedulerChoice, he, hl])
  | messageWriteEnd => exact same (by simp [exec, execMessageWriteEnd, hl])
  | statsWriteEnd | healthWriteEnd | setReplyReadEnd | answerTaken | deadlineExpiry | replyStoreEnd | completionWriteStart
  | completionWriteEnd | receiveWriteStart | receiveWriteEnd =>
    refine same ?_
    simp only [exec, execStatsWriteEnd, execHealthWriteEnd, execSetReplyReadEnd, execAnswerTaken, execDeadlineExpiry,
      execReplyStoreEnd, execCompletionWriteStart, execCompletionWriteEnd, execReceiveWriteStart, execReceiveWriteEnd, hl,
      Bool.false_eq_true, false_and, if_false]
    split <;> rfl
  | coalescingTimer ring =>
    refine same ?_
    cases ring <;>
    · simp only [exec, execCoalescingTimer, hl, Bool.false_eq_true, if_false]
      split <;> rfl
  | ignoredRegisterWrite => exact same rfl
  | powerOn | pcieLinkReset | functionLevelReset | softReset => cases hc
  | unknownCommand | createSubmissionRing | deleteSubmissionRing | createCompletionRing | deleteCompletionRing | setVector
  | createReceiveRing | deleteReceiveRing | setPort | portControlStart | portControlStop | portControlRecover | readPortStats
  | setMatch | clearMatch | setReply | clearReply | clearHealth | readHealth | abort =>
    refine same ?_
    simp only [exec, execUnknownCommand, execCreateSubmissionRing, execDeleteSubmissionRing, execCreateCompletionRing,
      execDeleteCompletionRing, execSetVector, execCreateReceiveRing, execDeleteReceiveRing, execSetPort, execPortControlStart,
      execPortControlStop, execPortControlRecover, State.portControl, execReadPortStats, execSetMatch, execClearMatch, execSetReply,
      execClearReply, execClearHealth, execReadHealth, execAbort, hfresh]
  | _ => cases hp

/-! ### Happenings at a port (R42, R170) -/

/-- R42: a port that has gone OFF without a closing. -/
theorem leavesFrame_eq_offAfter : s.leavesFrame p = (s.setPort p (offAfter (s.port p))).setSnapshot p none := rfl

section
variable {act leaves : Port → State} {actIn leavesIn : Port → FrameRec → State} (he : s.engine = .failed)
include he

theorem event_not_leaving (hl : (s.port p).leaving = false) : s.event p act leaves = s := by
  rw [State.event, State.atPort_of_failed he, hl, if_neg Bool.false_ne_true, State.settle_of_failed he]

theorem event_leaving (hl : (s.port p).leaving = true) (ht : (leaves (s.port p)).engine = .failed) :
    s.event p act leaves = leaves (s.port p) := by
  rw [State.event, State.atPort_of_failed he, if_pos hl, State.settle_of_failed ht]

theorem inFrame_leaving (hl : (s.port p).leaving = true) (hf : (s.port p).frame = some f)
    (ht : (leavesIn (s.port p) f).engine = .failed) : s.inFrame p actIn leavesIn = leavesIn (s.port p) f := by
  have honFrame : s.onFrame leavesIn (s.port p) = leavesIn (s.port p) f := by simp [State.onFrame, hf]
  rw [State.inFrame, event_leaving he hl (by rwa [honFrame]), honFrame]

theorem inFrame_without_frame (hf : (s.port p).frame = none) : s.inFrame p actIn leavesIn = s := by
  have honFrame : s.onFrame leavesIn (s.port p) = s := by simp [State.onFrame, hf]
  cases hl : (s.port p).leaving with
  | false => exact event_not_leaving he hl
  | true => rw [State.inFrame, event_leaving he hl (by rwa [honFrame]), honFrame]

/-- R42: a port that is not leaving does not act. -/
theorem exec_not_leaving (hl : (s.port p).leaving = false) (hc : happensAt c = some p) : exec c s = .next s := by
  cases c <;> cases hc
  all_goals exact congrArg Host.Outcome.next (event_not_leaving he hl)

section
variable (hl : (s.port p).leaving = true)
include hl

/-- R42, R36: the rows that end a byte, a slot or the frame, and a stuck condition, take the port OFF. -/
theorem exec_endsPart (hf : (s.port p).frame = some f) (hc : endsPart c = some p) : exec c s = .next (s.leavesFrame p) := by
  cases c <;> cases hc
  case closing | stuckCondition => exact congrArg Host.Outcome.next (event_leaving he hl he)
  all_goals exact congrArg Host.Outcome.next (inFrame_leaving he hl hf he)

/-- Every row that is not of the frame's course has no effect. -/
theorem exec_other (hc : happensAt c = some p) (hends : endsPart c = none)
    (hmay : mayEndPart c = none) (hwithin : withinPart c = none) : exec c s = .next s := by
  cases c <;> cases hc
  case opening | idleGap | recoveryFailed | answerLimitExpiry | clockPulse | holdCeilingPassed =>
    exact congrArg Host.Outcome.next (event_leaving he hl he)
  case arbitrationLoss | clash | overridden | frameSilence => cases hmay
  case lineGoesLow | hold => cases hwithin
  all_goals cases hends

end

end

end Sys2Proof.Machine
end

section
/-!
PROOFS. Rows of a port's frame while the device works and no stop is pending: the layer that the statements about receivers,
serving ports and initiators share; and the answer window (O51).
-/
namespace Sys2Proof.Machine
open Sys2Proof.Safety

variable {s t : State} {p : PortId} {f g : FrameRec}

/-! ### A row that acts at a port on which no stop is pending -/

/-- R170: a happening at such a port does what its row says and brings about nothing more. -/
theorem next_event {act leaves : Port → State} (h : Plain s p) (ht : act (s.port p) = t) (htp : Plain t p) :
    Host.Outcome.next (s.event p act leaves) = (.next t : Answer) := by
  rw [State.event_of_live (State.live_of_plain h), ht, State.settle_of_plain htp]

theorem next_inFrame {act leaves : Port → FrameRec → State} (h : Plain s p) (hf : (s.port p).frame = some f)
    (ht : act (s.port p) f = t) (htp : Plain t p) : Host.Outcome.next (s.inFrame p act leaves) = (.next t : Answer) := by
  rw [State.inFrame_of_live (State.live_of_plain h) hf, ht, State.settle_of_plain htp]

theorem plain_frameAt {d : Driver} {last : Level} {bit : Nat} (h : Plain s p) : Plain (frameAt s p f d last bit) p :=
  plain_setPort h h.2

theorem plain_observes {now : Time} {last : Level} {bit : Nat} (h : Plain s p) :
    Plain (s.setPort p (observes (s.port p) f now last bit)) p := plain_setPort h h.2

theorem plain_closesAt {last : Level} (h : Plain s p) : Plain (closesAt s p f last) p := plain_setPort h h.2

theorem plain_goesAt {d : Driver} {last : Level} (h : Plain s p) : Plain (goesAt s p f d last) p := by
  unfold goesAt
  split
  · exact plain_closesAt h
  · exact plain_frameAt h

/-- R2, R20: a byte or slot that ends at a port that goes on driving BDA as it did. -/
theorem State.setFrame_eq {last : Level} {bit : Nat} :
    s.setFrame p f last bit = frameAt s p f (s.port p).bdaDriver last bit := by
  simp only [State.setFrame, Port.clocked_eq]
  rfl

theorem State.setFrame_endBit {last : Level} : s.setFrame p f last = frameAt s p f (s.port p).bdaDriver last := by
  rw [State.setFrame_eq, Port.endBit_eq]

theorem State.observeFrame_bit {last : Level} {bit : Nat} :
    s.observeFrame p f last bit = s.setPort p (observes (s.port p) f s.timeBase last bit) := by
  simp only [State.observeFrame, Port.clocked_eq]
  rfl

/-- R4: the last bit of a byte that the port has sent stays on BDA. -/
theorem State.byteSent_eq {byte : Byte} :
    s.byteSent p f byte = frameAt s p f (if byte.getLsbD 0 then .released else .drivenLow) (lastLevel byte) :=
  State.setFrame_driveBda

/-! ### The answer window (R113, R116) -/

/-- R115, R116: a query that is closed while the port holds. -/
theorem closeQuery_eq {q : QueryDetails} {expiry : ExpiryAnswer} {reason : CloseReason} {bck : Level} {v : ServiceRec}
    (hf : (s.port p).frame = some f) (hv : f.service = some v) :
    s.closeQuery p q expiry reason bck =
      (s.setPort p
        { (s.port p).endHold s.timeBase bck with
          window := .none,
          frame := some { f with service := some { v with turnaround := some expiry } } }).claimAtPosting q.ring
        (closedRecord p q reason s.timeBase) := by
  simp [State.closeQuery, Port.service, Port.setService, hf, hv, State.queryClosed, closedRecord, Port.endHold]

/-- Settles O51: the window by what it holds. -/
theorem answerWindowLatchesOrExpires : Obligations.AnswerWindowLatchesOrExpires := by
  intro s p bck hl x released
  refine ⟨fun r y c hy hp hc ha hk hlatched => ?answer, fun q expiry f v h hs hw hf hv => ?limit⟩
  case answer =>
    have hbegins : s.live ∧ y.desc.kind = .answer ∧ s.latched r = false := ⟨hl, hk, hlatched⟩
    have hlate : s.completeAnswer r .tooLate 0 = handedOver s r c (plainEntry s r y.desc.tag .tooLate) :=
      State.completeAnswer_eq_completed (abort := none) _ _ hy hc ha
    refine ⟨fun q expiry due hw ht => ?_, fun hother => ?_⟩
    · have hw' : (s.port p).window = .waiting q expiry due := hw
      simp only [exec, execAnswerTaken, hy, hp, if_pos hbegins, hw', if_pos ht]
      rfl
    · simp only [exec, execAnswerTaken, hy, hp, if_pos hbegins]
      split
      next q expiry due hw => rw [if_neg (hother q expiry due hw), hlate]
      next => rw [hlate]
  case limit =>
    have hw' : (s.port p).window = .waiting q expiry s.timeBase := hw
    refine next_event h ?_ (plain_claimAtPosting (plain_setPort h h.2))
    simp only [hw', reach_self]
    exact closeQuery_eq hf hv

end Sys2Proof.Machine
end

section
/-!
PROOFS. Headers on the wire (O39). The check bits are parities, and a parity is linear: changing a header by a mask keeps its
checks right exactly where the mask, read as a header, has right checks; no single bit has.
-/
namespace Sys2Proof.Machine
open Sys2Proof.Safety

/-! ### Parity (R8) -/

theorem foldl_bne_bne {α : Type} (f g : α → Bool) (l : List α) (a b : Bool) :
    l.foldl (fun acc i => acc != (f i != g i)) (a != b) =
      (l.foldl (fun acc i => acc != f i) a != l.foldl (fun acc i => acc != g i) b) := by
  induction l generalizing a b with
  | nil => rfl
  | cons i l ih =>
    have hstep : ((a != b) != (f i != g i)) = ((a != f i) != (b != g i)) := by
      cases a <;> cases b <;> cases f i <;> cases g i <;> rfl
    rw [List.foldl_cons, hstep, ih, List.foldl_cons, List.foldl_cons]

theorem parityBit_xor {w : Nat} (v m : BitVec w) : parityBit (v ^^^ m) = (parityBit v != parityBit m) := by
  simp only [parityBit, BitVec.getLsbD_xor]
  exact foldl_bne_bne _ _ _ false false

theorem bne_beq_bne (a x y : Bool) : ((a != x) == (a != y)) = (x == y) := by cases a <;> cases x <;> cases y <;> rfl

/-- R8: a mask on a header with right check bits keeps them right exactly where it has right check bits of its own. -/
theorem checksRight_xor {h m : Header} (hr : Header.checksRight h = true) :
    Header.checksRight (h ^^^ m) = Header.checksRight m := by
  simp only [Header.checksRight, Bool.and_eq_true, beq_iff_eq] at hr
  obtain ⟨h1, h2⟩ := hr
  simp only [Header.checksRight, Header.source, Header.check1, Header.check2, BitVec.extractLsb'_xor, parityBit_xor,
    BitVec.getLsbD_xor] at h1 h2 ⊢
  rw [h1, h2, bne_beq_bne, bne_beq_bne]

theorem not_checksRight_twoPow : ∀ i < 24, Header.checksRight (BitVec.twoPow 24 i) = false := by decide

/-! ### The fields of a header that was built (R8, 11.7) -/

section
variable (kind : FrameKind) (dest source : Station)

theorem extract_front_buildHeader : (buildHeader kind dest source).extractLsb' 12 12 = kind.wire ++ dest := by
  apply BitVec.eq_of_getLsbD_eq
  intro i hi
  simp only [buildHeader, BitVec.getLsbD_extractLsb', BitVec.getLsbD_append, hi, decide_true, Bool.true_and]
  rw [if_neg (by omega), if_neg (by omega), if_neg (by omega), show 12 + i - 1 - 1 - 10 = i by omega]

theorem source_buildHeader : Header.source (buildHeader kind dest source) = source := by
  apply BitVec.eq_of_getLsbD_eq
  intro i hi
  simp only [Header.source, buildHeader, BitVec.getLsbD_extractLsb', BitVec.getLsbD_append, hi, decide_true, Bool.true_and]
  rw [if_neg (by omega), if_neg (by omega), if_pos (by omega), show 2 + i - 1 - 1 = i by omega]

theorem kind_buildHeader : Header.kind (buildHeader kind dest source) = kind.wire := by
  apply BitVec.eq_of_getLsbD_eq
  intro i hi
  simp only [Header.kind, buildHeader, BitVec.getLsbD_extractLsb', BitVec.getLsbD_append, hi, decide_true, Bool.true_and]
  rw [if_neg (by omega), if_neg (by omega), if_neg (by omega), if_neg (by omega), show 22 + i - 1 - 1 - 10 - 10 = i by omega]

theorem dest_buildHeader : Header.dest (buildHeader kind dest source) = dest := by
  apply BitVec.eq_of_getLsbD_eq
  intro i hi
  simp only [Header.dest, buildHeader, BitVec.getLsbD_extractLsb', BitVec.getLsbD_append, hi, decide_true, Bool.true_and]
  rw [if_neg (by omega), if_neg (by omega), if_neg (by omega), if_pos (by omega), show 12 + i - 1 - 1 - 10 = i by omega]

theorem check1_buildHeader : Header.check1 (buildHeader kind dest source) = parityBit (kind.wire ++ dest) := by
  simp only [Header.check1, buildHeader, BitVec.getLsbD_append]
  simp

theorem check2_buildHeader : Header.check2 (buildHeader kind dest source) = parityBit source := by
  simp only [Header.check2, buildHeader, BitVec.getLsbD_append]
  simp

theorem checksRight_buildHeader : Header.checksRight (buildHeader kind dest source) = true := by
  simp only [Header.checksRight, extract_front_buildHeader, source_buildHeader, check1_buildHeader, check2_buildHeader,
    beq_self_eq_true, Bool.and_self]

theorem frameKind_buildHeader : Header.frameKind (buildHeader kind dest source) = kind := by
  simp only [Header.frameKind, kind_buildHeader]
  cases kind <;> rfl

theorem kind_buildHeader_ne_zero : Header.kind (buildHeader kind dest source) ≠ 0 := by
  rw [kind_buildHeader]
  cases kind <;> decide

end

/-- R8: a header with right check bits and a valid kind carries nothing but its fields. -/
theorem buildHeader_of_checksRight {h : Header} (hr : Header.checksRight h = true) (hk : Header.kind h ≠ 0) :
    buildHeader (Header.frameKind h) (Header.dest h) (Header.source h) = h := by
  simp only [Header.checksRight, Bool.and_eq_true, beq_iff_eq] at hr
  obtain ⟨h1, h2⟩ := hr
  have hwire : (Header.frameKind h).wire = Header.kind h := by
    have hcases : ∀ k : BitVec 2, k ≠ 0 →
        (if k = 1 then FrameKind.send else if k = 2 then .query else .notice).wire = k := by decide
    exact hcases _ hk
  have hfront : (Header.frameKind h).wire ++ Header.dest h = h.extractLsb' 12 12 := by
    rw [hwire]
    apply BitVec.eq_of_getLsbD_eq
    intro i hi
    simp only [Header.kind, Header.dest, BitVec.getLsbD_append, BitVec.getLsbD_extractLsb', hi, decide_true, Bool.true_and]
    split
    · simp [*]
    · rw [show decide (i - 10 < 2) = true by simp; omega, Bool.true_and, show 22 + (i - 10) = 12 + i by omega]
  simp only [buildHeader, hfront, h1, h2]
  apply BitVec.eq_of_getLsbD_eq
  intro i hi
  simp only [Header.source, Header.check1, Header.check2, BitVec.getLsbD_append, BitVec.getLsbD_extractLsb', BitVec.getLsbD_ofBool]
  split_ifs
  · simp_all
  · simp [show i = 1 by omega]
  · rw [show decide (i - 1 - 1 < 10) = true by simp; omega, Bool.true_and, show 2 + (i - 1 - 1) = i by omega]
  · rw [show decide (i - 1 - 1 - 10 < 12) = true by simp; omega, Bool.true_and, show 12 + (i - 1 - 1 - 10) = i by omega]

/-! ### Judgement and arbitration (R9, R10) -/

theorem judge_ignored {h : Header} {station : Station} (hr : Header.checksRight h = false ∨ Header.kind h = 0) :
    judge h station = .ignored := by
  unfold judge
  rcases hr with hr | hr <;> simp [hr]

theorem completeHeader_getMsbD {own wire : Header} {n i : Nat} (hn : n ≤ 24) (hi : i < 24) :
    (completeHeader own n wire).getMsbD i = if i < n then own.getMsbD i else wire.getMsbD i := by
  simp only [completeHeader, BitVec.getMsbD_eq_getLsbD, BitVec.getLsbD_or, BitVec.getLsbD_and, BitVec.getLsbD_not,
    BitVec.getLsbD_shiftLeft, BitVec.getLsbD_allOnes]
  have hpos : 24 - 1 - i < 24 := by omega
  split
  next hlt => simp [hi, hpos, show ¬ 24 - 1 - i < 24 - n by omega, show 23 - i - (24 - n) < 24 by omega]
  next hge => simp [hi, hpos, show 24 - 1 - i < 24 - n by omega]

/-- Settles O39. -/
theorem headersRoundTripAndAreJudged : Obligations.HeadersRoundTripAndAreJudged := by
  refine ⟨?built, fun h => buildHeader_of_checksRight, fun h station => judge_ignored,
    fun own wire n i => completeHeader_getMsbD⟩
  intro kind dest source station h
  have hr : Header.checksRight h = true := checksRight_buildHeader kind dest source
  have hjudge : judge h station =
      if kind != .notice && dest == 1023 then .ignored
      else if source == 1023 then .ignored
      else if dest == station then .addressed kind
      else if kind == .notice && dest == 1023 then .broadcast
      else .other := by
    unfold judge
    simp only [h, checksRight_buildHeader, frameKind_buildHeader, dest_buildHeader, source_buildHeader, Config.broadcast,
      beq_eq_false_iff_ne.2 (kind_buildHeader_ne_zero kind dest source), Bool.not_true, Bool.or_self,
      Bool.false_eq_true, if_false]
  refine ⟨frameKind_buildHeader kind dest source, dest_buildHeader kind dest source, source_buildHeader kind dest source, hr,
    ?_, ?_, ?_, ?_, ?_, fun i hi => judge_ignored (.inl ?_)⟩
  · intro hk hd; simp [hjudge, hk, hd]
  · intro hs; simp [hjudge, hs]
  · intro hs hd hst; rcases hd with hd | hd <;> simp_all
  · intro hs hk hd hst; subst hd; rw [hjudge, hk, beq_eq_false_iff_ne.2 hs, beq_eq_false_iff_ne.2 (Ne.symm hst)]; rfl
  · intro hs hd hst; rw [hjudge, beq_eq_false_iff_ne.2 hs, beq_eq_false_iff_ne.2 hd, beq_eq_false_iff_ne.2 hst, Bool.and_false, Bool.and_false]; rfl
  · rw [checksRight_xor hr, not_checksRight_twoPow i hi]

end Sys2Proof.Machine
end

section
/-!
PROOFS. Receivers up to the header slot (O40), and the channel byte, the length byte and the course of a frame that a port
observes (O41).
-/
namespace Sys2Proof.Machine
open Sys2Proof.Safety

variable {s t : State} {p : PortId} {f g : FrameRec}

/-! ### The candidate list (R85) -/

theorem candidates_increasing (s : State) (p : PortId) (kind : FrameKind) (source : Station) :
    ((s.candidates p kind source).map fun c => c.index.val).Pairwise (· < ·) := by
  rw [State.candidates, List.map_map]
  exact List.pairwise_map.2 (List.Pairwise.filter _ (List.pairwise_lt_finRange 32))

theorem mem_candidates {kind : FrameKind} {source : Station} {c : Candidate} :
    c ∈ s.candidates p kind source ↔
      (c.entry = s.entry c.index ∧ c.entry.valid = true ∧ c.entry.ports.getLsbD p.val = true ∧
        c.entry.kinds.getLsbD kind.bit = true ∧
        source &&& c.entry.sourceMask = c.entry.sourceValue &&& c.entry.sourceMask) := by
  simp only [State.candidates, List.mem_map, List.mem_filter, List.mem_finRange, true_and, Bool.and_eq_true,
    MatchEntry.takesSource, beq_iff_eq, and_assoc]
  constructor
  · rintro ⟨i, hvalid, hport, hkind, hsource, rfl⟩
    exact ⟨rfl, hvalid, hport, hkind, hsource⟩
  · rintro ⟨he, htests⟩
    rw [he] at htests
    obtain ⟨hvalid, hport, hkind, hsource⟩ := htests
    exact ⟨c.index, hvalid, hport, hkind, hsource, by rw [← he]⟩

/-! ### An opening that is seen, and the header judgement (R5, R82) -/

theorem seeOpening_eq {x : Port} {now : Time} : x.seeOpening now = opened x now := rfl

theorem opening_at_idle (h : Plain s p) (hs : (s.port p).state = .idle) :
    exec (.opening p) s = .next (s.setPort p (opened (s.port p) s.timeBase)) := by
  refine next_event h ?_ (plain_setPort h h.2)
  simp only [hs, seeOpening_eq]

section
variable (h : Plain s p) (hf : (s.port p).frame = some f)
  (hs : (s.port p).state = .observing ∨ ((s.port p).state = .arbitrating ∧ f.turn = none)) {n : Nat}
  (hpos : f.position = .header n) {wire : Header}
include h hf hs hpos

/-- R9, R82: a receiver judges the header that it has taken. -/
theorem headerJudgement_of_receiver (ht : s.receiverJudges p (s.port p) f (completeHeader f.rxHeader n wire) = t)
    (htp : Plain t p) : exec (.headerJudgement p wire) s = .next t := by
  refine next_inFrame h hf ?_ htp
  rcases hs with hs | ⟨hs, hturn⟩
  · simp only [hpos, hs, ht]
  · simp only [hpos, hs, hturn, ht]

end

/-! ### What an initiator sends (R11, R51) -/

theorem turnXfer_eq {r : SubId} {y : StagedXfer} (ht : f.turn = some r) (hy : s.stagedOf r = some y) :
    s.turnXfer f = some y := by simp [State.turnXfer, ht, hy]

/-- R11, R51: the byte of its descriptor that the initiator sends. -/
theorem sentByte_initiating {x : Port} {r : SubId} {y : StagedXfer} {byte : Byte} (hs : x.state = .initiating)
    (ht : f.turn = some r) (hy : s.stagedOf r = some y)
    (hb : (f.position = .channelByte ∧ byte = y.desc.channel) ∨
      (f.position = .lengthByte ∧ byte = BitVec.ofNat 8 y.desc.outLength) ∨
      ∃ n, f.position = .byte n ∧ y.payload[n]? = some byte) : s.sentByte x f = some byte := by
  rcases hb with ⟨hpos, rfl⟩ | ⟨hpos, rfl⟩ | ⟨n, hpos, hn⟩
  · simp [State.sentByte, hs, hpos, turnXfer_eq ht hy]
  · simp [State.sentByte, hs, hpos, turnXfer_eq ht hy]
  · simp [State.sentByte, hs, hpos, turnXfer_eq ht hy, hn]

/-! ### Where a frame that is followed stands (R2, R15 to R19) -/

theorem sequel_eq {length : Byte} (hl : f.length = some length) (hk : Header.kind f.rxHeader ≠ 0) (n : Nat) :
    f.sequel n =
      if n < length.toNat then .byte n else if Header.frameKind f.rxHeader = .query then .turnaround else .done := by
  simp only [FrameRec.sequel, hl, if_neg hk]

theorem readSlot_not_accept {presence verdict : Level} (hr : presence = .recessive ∨ verdict = .recessive) :
    readSlot presence verdict ≠ .accept := by
  cases presence <;> cases verdict <;> simp_all [readSlot]

theorem afterReplyLength_eq (length : Byte) :
    afterReplyLength length = if 1 ≤ length.toNat ∧ length.toNat ≤ 64 then .replyByte 0 else .done := by
  have hzero : length = 0 ↔ length.toNat = 0 := by rw [BitVec.toNat_eq]; rfl
  unfold afterReplyLength
  simp only [hzero, Config.maxLength]
  by_cases h : 1 ≤ length.toNat ∧ length.toNat ≤ 64
  · rw [if_neg (by omega), if_pos h]
  · rw [if_pos (by omega), if_neg h]

/-! ### Rows of a frame that goes on (R2, R29) -/

section
variable (h : Plain s p) (hf : (s.port p).frame = some f)
include h hf

/-- A row after which the frame goes on, and the port drives BDA as it did. -/
theorem next_setFrame {act leaves : Port → FrameRec → State} {last : Level} (ht : act (s.port p) f = s.setFrame p g last) :
    Host.Outcome.next (s.inFrame p act leaves) = (.next (frameAt s p g (s.port p).bdaDriver last) : Answer) :=
  next_inFrame h hf (ht.trans State.setFrame_endBit) (plain_frameAt h)

/-- A row after which the port follows the frame with role OBSERVER. -/
theorem next_observeFrame {act leaves : Port → FrameRec → State} {last : Level}
    (ht : act (s.port p) f = s.observeFrame p g last) :
    Host.Outcome.next (s.inFrame p act leaves) = (.next (s.setPort p (observes (s.port p) g s.timeBase last)) : Answer) :=
  next_inFrame h hf (ht.trans State.observeFrame_eq) (plain_observes h)

/-- A row that ends a byte which the port has sent. -/
theorem next_byteSent {act leaves : Port → FrameRec → State} {byte : Byte} (ht : act (s.port p) f = s.byteSent p g byte) :
    Host.Outcome.next (s.inFrame p act leaves) =
      (.next (frameAt s p g (if byte.getLsbD 0 then .released else .drivenLow) (lastLevel byte)) : Answer) :=
  next_inFrame h hf (ht.trans State.byteSent_eq) (plain_frameAt h)

end

/-- Settles O40: the candidate list, an opening that is seen, and the judgement by its four outcomes. -/
theorem receiversJudgeHeaders : Obligations.ReceiversJudgeHeaders := by
  refine ⟨fun s p kind source => ⟨candidates_increasing s p kind source, fun c => ?candidate⟩,
    fun s p h => ⟨opening_at_idle h, fun f n wire hs hf hpos => ?judgement⟩⟩
  case candidate =>
    rw [mem_candidates]
    cases kind <;> rfl
  case judgement =>
    intro header last g follows serves
    have hstop : (s.port p).stopPending = false := h.2
    have hfollows (hj : s.receiverJudges p (s.port p) f header = s.observeFrame p g last) : follows :=
      headerJudgement_of_receiver h hf hs hpos (hj.trans State.observeFrame_eq) (plain_observes h)
    have hserves (role : Role) (found : List Candidate)
        (hj : s.receiverJudges p (s.port p) f header =
          (s.setPort p { s.port p with state := .serving }).setFrame p
            { g with role := role, service := some (.fresh found) } last) : serves role found :=
      headerJudgement_of_receiver h hf hs hpos
        (hj.trans (by rw [State.setFrame_endBit, State.setPort_port_self]; rfl)) (plain_frameAt (plain_setPort h h.2))
    refine ⟨fun hj => hfollows ?_, fun kind hj => hserves _ _ ?_, fun hj hnone => hfollows ?_, fun hj hsome => hserves _ _ ?_⟩
    · rcases hj with hj | hj <;> simp [State.receiverJudges, hstop, hj, g, last, levelOfBit, Header.check2]
    · simp [State.receiverJudges, hstop, hj, g, last, levelOfBit, Header.check2]
    · simp [State.receiverJudges, hstop, hj, hnone, g, last, levelOfBit, Header.check2]
    · simp [State.receiverJudges, hstop, hj, hsome, g, last, levelOfBit, Header.check2]

/-! ### The channel byte and the length byte (R86, R87) -/

/-- R83: the channel test of a candidate. -/
theorem takesChannel_iff {e : MatchEntry} {byte : Byte} :
    e.takesChannel byte = true ↔ byte &&& e.channelMask = e.channelValue &&& e.channelMask := by
  simp [MatchEntry.takesChannel]

section
variable (h : Plain s p) (hf : (s.port p).frame = some f)
include h hf

section
variable {byte : Byte} (hpos : f.position = .channelByte)
include hpos

theorem channelByte_initiating {r : SubId} {y : StagedXfer} (hs : (s.port p).state = .initiating) (ht : f.turn = some r)
    (hy : s.stagedOf r = some y) :
    exec (.channelByte p byte) s =
      .next
        (frameAt s p { f with position := .lengthByte, channel := some y.desc.channel }
          (if y.desc.channel.getLsbD 0 then .released else .drivenLow) (lastLevel y.desc.channel)) := by
  have hsent := sentByte_initiating hs ht hy (.inl ⟨hpos, rfl⟩)
  exact next_byteSent h hf (by simp only [hpos, hs, hsent])

theorem channelByte_observing (hs : (s.port p).state = .observing) :
    exec (.channelByte p byte) s =
      .next (frameAt s p { f with position := .lengthByte, channel := some byte } (s.port p).bdaDriver (lastLevel byte)) :=
  next_setFrame h hf (by simp only [hpos, hs]; rfl)

variable {v : ServiceRec} (hs : (s.port p).state = .serving) (hv : f.service = some v)
include hs hv

/-- R86: a port that serves keeps the hit that it finds. -/
theorem channelByte_serving (hlisten : v.candidates.find? (·.entry.takesChannel byte) ≠ none ∨ f.role ≠ .listener) :
    exec (.channelByte p byte) s =
      .next
        (frameAt s p
          { f with
            position := .lengthByte, channel := some byte,
            service := some { v with hit := v.candidates.find? (·.entry.takesChannel byte) } }
          (s.port p).bdaDriver (lastLevel byte)) := by
  refine next_setFrame h hf ?_
  have hno : ¬ (v.candidates.find? (·.entry.takesChannel byte) = none ∧ f.role = .listener) := by tauto
  simp only [hpos, hs, hv, if_neg hno]
  rfl

/-- R86: a listener without a hit observes. -/
theorem channelByte_listener (hnone : v.candidates.find? (·.entry.takesChannel byte) = none) (hrole : f.role = .listener) :
    exec (.channelByte p byte) s =
      .next
        (s.setPort p
          (observes (s.port p) { f with position := .lengthByte, channel := some byte } s.timeBase (lastLevel byte))) := by
  refine next_observeFrame h hf ?_
  simp only [hpos, hs, hv, if_pos (And.intro hnone hrole)]
  rfl

end

theorem lengthByte_initiating {r : SubId} {y : StagedXfer} {length : Byte} (hpos : f.position = .lengthByte)
    (hs : (s.port p).state = .initiating) (ht : f.turn = some r) (hy : s.stagedOf r = some y) :
    exec (.headerVerdict p length) s =
      .next
        (frameAt s p { f with position := .headerSlot, length := some (BitVec.ofNat 8 y.desc.outLength) }
          (if (BitVec.ofNat 8 y.desc.outLength).getLsbD 0 then .released else .drivenLow)
          (lastLevel (BitVec.ofNat 8 y.desc.outLength))) := by
  have hsent := sentByte_initiating hs ht hy (.inr (.inl ⟨hpos, rfl⟩))
  exact next_byteSent h hf (by simp only [hpos, if_true, hs, hsent])

theorem lengthByte_observing {length : Byte} (hpos : f.position = .lengthByte) (hs : (s.port p).state = .observing)
    (hl : length.toNat ≤ 64) :
    exec (.headerVerdict p length) s =
      .next (frameAt s p { f with position := .headerSlot, length := some length } (s.port p).bdaDriver (lastLevel length)) :=
  next_setFrame h hf (by simp only [hpos, if_true, hs, Config.maxLength, if_neg (Nat.not_lt.2 hl)]; rfl)

/-! ### The course of a frame that a port observes (R29) -/

section
variable (hs : (s.port p).state = .observing)
include hs

theorem acknowledgeSlot_observing (presence verdict : Level) :
    exec (.acknowledgeSlot p presence verdict) s =
      .next
        (frameAt s p { f with position := f.observedSlot (readSlot presence verdict) } (s.port p).bdaDriver verdict) := by
  refine next_setFrame h hf ?_
  cases f.turn <;> simp only [hs]

theorem byteReceived_observing {n : Nat} (hpos : f.position = .byte n) (byte : Byte) :
    exec (.byteReceived p byte) s =
      .next (frameAt s p { f with position := .byteSlot n } (s.port p).bdaDriver (lastLevel byte)) :=
  next_setFrame h hf (by simp only [hs, hpos]; rfl)

theorem turnaroundSlot_observing (hpos : f.position = .turnaround) (presence verdict : Level) :
    exec (.turnaroundSlot p presence verdict) s =
      .next
        (frameAt s p { f with position := if readSlot presence verdict = .accept then .replyLength else .done }
          (s.port p).bdaDriver verdict) :=
  next_setFrame h hf (by simp only [hs, hpos])

theorem replyLengthByte_observing (hpos : f.position = .replyLength) (reply : Byte) :
    exec (.replyLengthByte p reply) s =
      .next
        (frameAt s p
          { f with
            position := if 1 ≤ reply.toNat ∧ reply.toNat ≤ 64 then .replyByte 0 else .done, replyLength := some reply }
          (s.port p).bdaDriver (lastLevel reply)) :=
  next_setFrame h hf (by simp only [hs, hpos, afterReplyLength_eq]; rfl)

theorem replyByte_observing {n : Nat} (hpos : f.position = .replyByte n) (byte : Byte) :
    exec (.replyByte p byte) s =
      .next (frameAt s p { f with position := .replySlot n } (s.port p).bdaDriver (lastLevel byte)) := by
  refine next_setFrame h hf ?_
  cases f.turn <;> simp only [hs, hpos] <;> rfl

end

end

/-! ### What an observed slot leads to (R15 to R19) -/

theorem observedSlot_replySlot_accept {n : Nat} {reply : Byte} (hpos : f.position = .replySlot n)
    (hl : f.replyLength = some reply) :
    f.observedSlot .accept = if n + 1 < reply.toNat then .replyByte (n + 1) else .done := by
  simp [FrameRec.observedSlot, hpos, hl]

theorem observedSlot_replySlot_other {n : Nat} {reading : SlotReading} (hpos : f.position = .replySlot n)
    (hr : reading ≠ .accept) : f.observedSlot reading = .done := by simp [FrameRec.observedSlot, hpos, hr]

/-- Settles O41: the channel byte and the length byte by the port's state, and an observer's rows by their position. -/
theorem channelByteFindsHit : Obligations.ChannelByteFindsHit := by
  intro s p f h hf x sends
  refine ⟨fun byte hpos => ?channel, fun length hpos => ⟨fun r y hs ht hy => lengthByte_initiating h hf hpos hs ht hy,
    lengthByte_observing h hf hpos⟩, ?course⟩
  case channel =>
    refine ⟨fun r y hs ht hy => channelByte_initiating h hf hpos hs ht hy, channelByte_observing h hf hpos,
      fun v hs hv => ⟨fun before c after hc hpass hbefore => ?_, fun hnone hrole => ?_, fun hnone hrole => ?_⟩⟩
    · have hfind : v.candidates.find? (·.entry.takesChannel byte) = some c := by
        rw [hc, List.find?_append, List.find?_eq_none.2 fun b hb => fun hb' => hbefore b hb (takesChannel_iff.1 hb'),
          Option.none_or]
        exact List.find?_cons_of_pos (takesChannel_iff.2 hpass)
      rw [channelByte_serving h hf hpos hs hv (.inl (by simp [hfind])), hfind]
    · have hfind : v.candidates.find? (·.entry.takesChannel byte) = none :=
        List.find?_eq_none.2 fun c hc hc' => hnone c hc (takesChannel_iff.1 hc')
      rw [channelByte_serving h hf hpos hs hv (.inr hrole), hfind]
    · exact channelByte_listener h hf hpos hs hv
        (List.find?_eq_none.2 fun c hc hc' => hnone c hc (takesChannel_iff.1 hc')) hrole
  case course =>
    intro length hs hl hk kind next goes
    have hslot {presence verdict : Level} {position : Position}
        (hp : f.observedSlot (readSlot presence verdict) = position) :
        goes (.acknowledgeSlot p presence verdict) position verdict := by
      simp only [goes, acknowledgeSlot_observing h hf hs, hp]
      rfl
    have hsequel : ∀ n, f.sequel n = next n := sequel_eq hl hk
    refine ⟨fun hpos => ⟨hslot ?_, hslot ?_, fun verdict => hslot ?_⟩, fun n byte hpos => byteReceived_observing h hf hs hpos byte,
      fun n hpos => ⟨hslot ?_, fun presence verdict hr => hslot ?_⟩,
      fun hpos => ⟨turnaroundSlot_observing h hf hs hpos .dominant .dominant, fun presence verdict hr => ?_⟩,
      fun reply hpos => replyLengthByte_observing h hf hs hpos reply, fun n byte hpos => replyByte_observing h hf hs hpos byte,
      fun n reply hpos hr => ⟨fun hn => hslot ?_, fun hn => hslot ?_, fun presence verdict hr => hslot ?_⟩⟩
    · simp [FrameRec.observedSlot, hpos, readSlot, hsequel]
    · simp [FrameRec.observedSlot, hpos, readSlot, hsequel, kind]
    · simp [FrameRec.observedSlot, hpos, readSlot]
    · simp [FrameRec.observedSlot, hpos, readSlot, hsequel]
    · simp [FrameRec.observedSlot, hpos, readSlot_not_accept hr, hsequel, kind]
    · have hrow := turnaroundSlot_observing h hf hs hpos presence verdict
      rwa [if_neg (readSlot_not_accept hr)] at hrow
    · exact (observedSlot_replySlot_accept hpos hr).trans (if_pos hn)
    · exact (observedSlot_replySlot_accept hpos hr).trans (if_neg (by omega))
    · exact observedSlot_replySlot_other hpos (readSlot_not_accept hr)

end Sys2Proof.Machine
end

section
/-!
PROOFS. The header verdict (O42), by the action of the hit and the state of its ring, slot or window.
-/
namespace Sys2Proof.Machine
open Sys2Proof.Safety

variable {s t : State} {p : PortId} {f : FrameRec} {v w : ServiceRec} {length : Byte} {verdict : HeaderVerdict}

/-! ### A verdict that is given (R87, R93) -/

/-- The service record from the length byte on: the expected length and the verdict time are kept. -/
def ServiceRec.lengthKnown (v : ServiceRec) (length : Byte) (now : Time) : ServiceRec :=
  { v with expected := length.toNat, verdictTime := some now }

/-- The frame record from the length byte on. -/
def FrameRec.lengthKnown (f : FrameRec) (length : Byte) : FrameRec := { f with length := some length }

theorem giveVerdict_eq :
    t.giveVerdict p (f.lengthKnown length) (w.lengthKnown length t.timeBase) verdict =
      verdictGiven t p f w length verdict := by
  by_cases hv : verdict = .refuse
  · simp only [State.giveVerdict, if_pos hv, State.setFrame_endBit, State.count, frameAt, State.setPort_port_self,
      State.setPort_setPort, verdictGiven]
    rfl
  · simp only [State.giveVerdict, if_neg hv, State.setFrame_endBit, frameAt, verdictGiven]
    rfl

theorem plain_verdictGiven (h : Plain t p) : Plain (verdictGiven t p f w length verdict) p := plain_setPort h h.2

/-- R87: the end of the length byte at a serving port. -/
theorem headerVerdict_serving (h : Plain s p) (hs : (s.port p).state = .serving) (hf : (s.port p).frame = some f)
    (hpos : f.position = .lengthByte) (hv : f.service = some v) (hl : length.toNat ≤ 64) (ht : Plain t p)
    (hd : s.decideVerdict p (f.lengthKnown length) (v.lengthKnown length s.timeBase) =
      t.giveVerdict p (f.lengthKnown length) (w.lengthKnown length t.timeBase) verdict) :
    exec (.headerVerdict p length) s = .next (verdictGiven t p f w length verdict) := by
  refine next_inFrame h hf ?_ (plain_verdictGiven ht)
  simp only [hpos, if_true, hs, hv, Config.maxLength, if_neg (Nat.not_lt.2 hl)]
  exact hd.trans giveVerdict_eq

/-! ### The decision, by the hit (R87, R88, R90, R92) -/

section
variable {g : FrameRec} {h : Candidate} (hh : v.hit = some h)

theorem decideVerdict_none (hn : v.hit = none) : s.decideVerdict p g v = s.giveVerdict p g v .refuse := by
  simp [State.decideVerdict, hn]

include hh

theorem decideVerdict_refuse (ha : h.entry.action = some .refuse) :
    s.decideVerdict p g v = s.giveVerdict p g v .refuse := by simp [State.decideVerdict, hh, ha]

theorem decideVerdict_slotWrite (ha : h.entry.action = some .slotWrite) :
    s.decideVerdict p g v = s.giveVerdict p g v .accept := by simp [State.decideVerdict, hh, ha]

theorem decideVerdict_deliver (ha : h.entry.action = some .deliver) :
    s.decideVerdict p g v = s.deliverVerdict p g v h := by simp [State.decideVerdict, hh, ha]

theorem decideVerdict_defer (ha : h.entry.action = some .defer) :
    s.decideVerdict p g v = s.deferVerdict p g v h := by simp [State.decideVerdict, hh, ha]

theorem decideVerdict_replySlot (ha : h.entry.action = some .replySlot) :
    s.decideVerdict p g v = s.replySlotVerdict p g v h := by simp [State.decideVerdict, hh, ha]

end

section
variable {g : FrameRec} {h : Candidate} {r : RcvId} (hr : ringOfByte h.entry.targetRing = r)
include hr

theorem deliverVerdict_granted (hk : (s.rcv r).answer = .granted) :
    s.deliverVerdict p g v h = (s.reserve r).giveVerdict p g { v with reservation := some r } .accept := by
  simp only [State.deliverVerdict, hr, hk]

theorem deliverVerdict_refuses (hk : (s.rcv r).answer = .full) (hp : (s.rcv r).policy = .refuseWhenFull) :
    s.deliverVerdict p g v h = s.giveVerdict p g v .refuse := by simp only [State.deliverVerdict, hr, hk, hp]

theorem deliverVerdict_discards (hk : (s.rcv r).answer = .full) (hp : (s.rcv r).policy = .discardWhenFull) :
    s.deliverVerdict p g v h = s.giveVerdict p g { v with discard := true } .accept := by
  simp only [State.deliverVerdict, hr, hk, hp]

theorem deliverVerdict_absent (hk : (s.rcv r).answer = .absent) :
    s.deliverVerdict p g v h = s.giveVerdict p g v .refuse := by simp only [State.deliverVerdict, hr, hk]

theorem deferVerdict_granted (hw : (s.port p).window = .none) (hk : (s.rcv r).answer = .granted) :
    s.deferVerdict p g v h = (s.reserve r).giveVerdict p g { v with reservation := some r } .accept := by
  simp only [State.deferVerdict, hr, hw, hk, true_and, if_true]

theorem deferVerdict_refuses (hk : (s.port p).window ≠ .none ∨ (s.rcv r).answer ≠ .granted) :
    s.deferVerdict p g v h = s.giveVerdict p g v .refuse := by
  simp only [State.deferVerdict, hr]
  exact if_neg (by tauto)

end

section
variable {g : FrameRec} {h : Candidate} {i : SlotId} (hi : slotOfByte h.entry.slot = i)
include hi

theorem replySlotVerdict_empty (hk : (s.reply i).loaded = false) :
    s.replySlotVerdict p g v h = s.giveVerdict p g v .refuse := by
  simp [State.replySlotVerdict, hi, hk]

theorem replySlotVerdict_keeps (hk : (s.reply i).loaded = true) (ho : (s.reply i).oneShot = false) :
    s.replySlotVerdict p g v h =
      (s.setSnapshot p (some { slot := i, data := (s.reply i).data })).giveVerdict p g v .accept := by
  simp [State.replySlotVerdict, hi, hk, ho]

theorem replySlotVerdict_empties (hk : (s.reply i).loaded = true) (ho : (s.reply i).oneShot = true) :
    s.replySlotVerdict p g v h =
      (((s.setSnapshot p (some { slot := i, data := (s.reply i).data })).setReply i
        { s.reply i with loaded := false, data := [] }).slotNote p .slotConsumed h g v.expected).giveVerdict p g v .accept := by
  simp [State.replySlotVerdict, hi, hk, ho]

end

theorem claimAtPosting_timeBase (s : State) (r : RcvId) (e : RcvEntry) : (s.claimAtPosting r e).timeBase = s.timeBase := by
  obtain ⟨rcvs, hrcvs⟩ := s.claimAtPosting_frame r e
  rw [hrcvs]

/-- Settles O42, by the action of the hit. -/
theorem headerVerdictFollowsHit : Obligations.HeaderVerdictFollowsHit := by
  intro s p f v length h hs hf hpos hv hl gives
  have hgives {t : State} {w : ServiceRec} {verdict : HeaderVerdict} (ht : Plain t p)
      (hd : s.decideVerdict p (f.lengthKnown length) (v.lengthKnown length s.timeBase) =
        t.giveVerdict p (f.lengthKnown length) (w.lengthKnown length t.timeBase) verdict) : gives t w verdict :=
    headerVerdict_serving h hs hf hpos hv hl ht hd
  refine ⟨fun hn => hgives h (decideVerdict_none hn), fun hit hh => ⟨fun ha => hgives h (decideVerdict_refuse hh ha),
    fun ha => hgives h (decideVerdict_slotWrite hh ha), ?ring, ?slot⟩⟩
  case ring =>
    intro r hr k room full reserved
    have hring : ringOfByte hit.entry.targetRing = r := ringOfByte_eq hr
    have hgranted (hroom : room) : (s.rcv r).answer = .granted := answer_granted hroom.1 hroom.2.1 hroom.2.2
    have hfull (hroom : full) : (s.rcv r).answer = .full := answer_full hroom.1 hroom.2.1 hroom.2.2
    have habsent (hgone : k.state = .absent ∨ k.closing = true) : (s.rcv r).answer = .absent := answer_absent hgone
    have hreserved : Plain reserved p := h
    refine ⟨fun ha => ?_, fun ha => ?_⟩
    · have hdec := decideVerdict_deliver (s := s) (p := p) (g := f.lengthKnown length)
        (v := v.lengthKnown length s.timeBase) hh ha
      exact ⟨fun hroom => hgives hreserved (hdec.trans (deliverVerdict_granted hring (hgranted hroom))),
        fun hroom hp => hgives h (hdec.trans (deliverVerdict_refuses hring (hfull hroom) hp)),
        fun hroom hp => hgives h (hdec.trans (deliverVerdict_discards hring (hfull hroom) hp)),
        fun hgone => hgives h (hdec.trans (deliverVerdict_absent hring (habsent hgone)))⟩
    · have hdec := decideVerdict_defer (s := s) (p := p) (g := f.lengthKnown length)
        (v := v.lengthKnown length s.timeBase) hh ha
      refine ⟨fun hw hroom => hgives hreserved (hdec.trans (deferVerdict_granted hring hw (hgranted hroom))),
        fun hno => hgives h (hdec.trans (deferVerdict_refuses hring ?_))⟩
      rcases hno with hw | hroom | hgone
      · exact .inl hw
      · exact .inr (by simp [hfull hroom])
      · exact .inr (by simp [habsent hgone])
  case slot =>
    intro i hi ha k taken emptied
    have hslot : slotOfByte hit.entry.slot = i := slotOfByte_eq hi
    have hdec := decideVerdict_replySlot (s := s) (p := p) (g := f.lengthKnown length)
      (v := v.lengthKnown length s.timeBase) hh ha
    refine ⟨fun hk => hgives h (hdec.trans (replySlotVerdict_empty hslot hk)),
      fun hk ho => hgives (t := taken) h (hdec.trans (replySlotVerdict_keeps hslot hk ho)),
      fun hk ho hn => hgives (t := emptied) h (hdec.trans ((replySlotVerdict_empties hslot hk ho).trans ?_)),
      fun b r hk ho hn hr => hgives (plain_claimAtPosting (s := emptied) h)
        (hdec.trans ((replySlotVerdict_empties hslot hk ho).trans ?_))⟩
    · simp only [State.slotNote, hn]
      rfl
    · simp only [State.slotNote, hn, ringOfByte_eq hr, hslot, claimAtPosting_timeBase]
      rfl

end Sys2Proof.Machine
end

section
/-!
PROOFS. A serving port takes the frame's bytes, answers their slots and reaches the turnaround (O43).
-/
namespace Sys2Proof.Machine
open Sys2Proof.Safety

variable {s t : State} {p : PortId} {f g : FrameRec} {v : ServiceRec}

/-! ### Rows of a serving port -/

theorem frameAt_setPort {x : Port} {d : Driver} {last : Level} :
    frameAt (s.setPort p x) p f d last =
      s.setPort p
        { edgeSeen x s.timeBase last with frame := some { f with bit := 0, holdSince := none }, bdaDriver := d } := by
  unfold frameAt
  rw [State.setPort_port_self, State.setPort_setPort]
  rfl

/-- R2, R12: what the port drives in a slot's last bit is on BDA as the slot ends. -/
theorem State.driveBda_setFrame {d : Driver} {last : Level} :
    (s.driveBda p d).setFrame p f last = frameAt s p f d last := by
  rw [State.setFrame_endBit, State.driveBda, frameAt_setPort, State.setPort_port_self]
  rfl

section
variable (h : Plain s p) (hf : (s.port p).frame = some f)
include h hf

/-- A row after which the frame goes on and the port drives BDA as `d` says. -/
theorem next_setFrame_driveBda {act leaves : Port → FrameRec → State} {last : Level} {d : Driver}
    (ht : act (s.port p) f = (s.setFrame p g last).driveBda p d) :
    Host.Outcome.next (s.inFrame p act leaves) = (.next (frameAt s p g d last) : Answer) :=
  next_inFrame h hf (ht.trans State.setFrame_driveBda) (plain_frameAt h)

variable (hs : (s.port p).state = .serving) (hv : f.service = some v)
include hs

/-- R30: a port that has refused sees the frame go on at its turnaround. -/
theorem turnaroundSlot_refused (hpos : f.position = .refused) (presence verdict : Level) :
    exec (.turnaroundSlot p presence verdict) s =
      .next
        (s.setPort p
          (observes (s.port p)
            { f with position := if readSlot presence verdict = .accept then .replyLength else .done } s.timeBase verdict 1)) :=
  next_inFrame h hf (by simp only [hpos, hs, State.observeFrame_bit]) (plain_observes h)

include hv

theorem byteReceived_serving {n : Nat} (hpos : f.position = .byte n) (byte : Byte) :
    exec (.byteReceived p byte) s =
      .next
        (frameAt s p
          { f with position := .byteSlot n, service := some { v with received := v.received ++ [byte] } } .released
          (lastLevel byte)) :=
  next_setFrame_driveBda h hf (by simp only [hs, hpos, hv]; rfl)

theorem byteReceived_refused (hpos : f.position = .refused) (byte : Byte) :
    exec (.byteReceived p byte) s =
      .next (s.setPort p (observes (s.port p) { f with position := .byteSlot 0 } s.timeBase (lastLevel byte))) :=
  next_observeFrame h hf (by simp only [hs, hpos, hv]; rfl)

/-- R31: a slot that ends at a serving port. -/
theorem acknowledgeSlot_serving {presence verdict : Level}
    (ht : s.servingSlot p f v (readSlot presence verdict) verdict = t) (htp : Plain t p) :
    exec (.acknowledgeSlot p presence verdict) s = .next t := by
  refine next_inFrame h hf ?_ htp
  cases f.turn <;> simpa only [hs, hv] using ht

/-! ### After a REFUSE (R30) -/

section
variable {length : Byte} (hpos : f.position = .headerSlot) (hverdict : v.verdict = some .refuse)
  (hexpected : v.expected = length.toNat) {presence verdict : Level}
include hpos hverdict hexpected

theorem headerSlot_left (hl : f.length = some length) (hk : Header.kind f.rxHeader ≠ 0)
    (hgo : goesOn (Header.frameKind f.rxHeader) length.toNat (readSlot presence verdict) = true) :
    exec (.acknowledgeSlot p presence verdict) s =
      .next
        (s.setPort p
          (observes (s.port p)
            { f with
              position := if 0 < length.toNat then .byte 0
                else if Header.frameKind f.rxHeader = .query then .turnaround else .done }
            s.timeBase verdict)) := by
  refine acknowledgeSlot_serving h hf hs hv ?_ (plain_observes h)
  simp [State.servingSlot, hpos, hverdict, hexpected, hgo, State.observeFrame_eq, sequel_eq hl hk]

theorem headerSlot_refused (hgo : goesOn (Header.frameKind f.rxHeader) length.toNat (readSlot presence verdict) = false) :
    exec (.acknowledgeSlot p presence verdict) s =
      .next (frameAt s p { f with position := .refused } .released verdict) := by
  refine acknowledgeSlot_serving h hf hs hv ?_ (plain_frameAt h)
  simp [State.servingSlot, hpos, hverdict, hexpected, hgo, State.setFrame_driveBda]

end

/-! ### After an ACCEPT (R31, R90, R92, R111) -/

/-- R31: the slot after which `n` of the frame's bytes have been taken. -/
theorem acknowledgeSlot_accepting {n : Nat}
    (hn : (f.position = .headerSlot ∧ v.verdict = some .accept ∧ n = 0) ∨ (∃ i, f.position = .byteSlot i ∧ n = i + 1))
    (ht : s.afterAccept p f v n .dominant = t) (htp : Plain t p) :
    exec (.acknowledgeSlot p .dominant .dominant) s = .next t := by
  refine acknowledgeSlot_serving h hf hs hv ?_ htp
  rcases hn with ⟨hpos, hverdict, rfl⟩ | ⟨i, hpos, rfl⟩
  · simpa [State.servingSlot, hpos, hverdict] using ht
  · simpa [State.servingSlot, hpos] using ht

end

theorem afterAccept_byte {n : Nat} {last : Level} (hn : n < v.expected) :
    s.afterAccept p f v n last = frameAt s p { f with position := .byte n } .drivenLow last := by
  simp [State.afterAccept, hn, State.driveBda_setFrame]

section
variable {n : Nat} {last : Level} (hn : v.expected ≤ n)
include hn

theorem afterAccept_done (hk : Header.frameKind f.rxHeader ≠ .query) :
    s.afterAccept p f v n last = frameAt s p { f with position := .done } .drivenLow last := by
  simp [State.afterAccept, Nat.not_lt.2 hn, hk, State.driveBda_setFrame]

variable (hk : Header.frameKind f.rxHeader = .query) {hit : Candidate} (hh : v.hit = some hit)
include hk hh

theorem afterAccept_replySlot (ha : hit.entry.action = some .replySlot) :
    s.afterAccept p f v n last =
      frameAt s p { f with position := .turnaround, service := some { v with received := [] } } .drivenLow last := by
  simp [State.afterAccept, Nat.not_lt.2 hn, hk, State.reachTurnaround, hh, ha, State.driveBda_setFrame]

theorem afterAccept_cancelled (ha : hit.entry.action = some .defer) (hr : v.reservation = none) :
    s.afterAccept p f v n last =
      frameAt s p
        { f with
          position := .turnaround,
          service := some { v with turnaround := some (if hit.entry.expiry = 0 then .empty else .decline) } }
        .drivenLow last := by
  simp [State.afterAccept, Nat.not_lt.2 hn, hk, State.reachTurnaround, hh, ha, hr, State.driveBda_setFrame,
    ExpiryAnswer.ofByte]

/-- R92, R111, R112: a DEFER frame that still holds its reservation is handed to the answer window. -/
theorem afterAccept_holds {r : RcvId} (ha : hit.entry.action = some .defer) (hr : v.reservation = some r)
    (hheld : 0 < (s.rcv r).held) :
    s.afterAccept p f v n last =
      (s.setPort p
        { s.port p with
          state := .holding, bckDriver := .drivenLow, bdaDriver := .drivenLow, bckLowSince := none, bdaLowSince := none,
          silenceSince := none, nextToken := (s.port p).nextToken + 1,
          window := .waiting
            { token := (s.port p).nextToken, source := Header.source f.rxHeader, channel := f.channel.getD 0,
              length := v.expected, entry := hit.index, ring := r }
            (if hit.entry.expiry = 0 then .empty else .decline)
            (s.timeBase + BitVec.ofNat 32 (s.port p).config.answerLimit),
          frame := some
            { f with
              position := .turnaround, bit := 0, held := true, service := some { v with reservation := none } } }).setRcv r
        { s.rcv r with
          held := (s.rcv r).held - 1,
          queue := (s.rcv r).queue ++ [waitingRecord p f v hit (s.port p).nextToken] } := by
  have hzero : (s.rcv r).held ≠ 0 := by omega
  simp only [State.afterAccept, if_neg (Nat.not_lt.2 hn), if_pos hk, State.reachTurnaround, hh, Option.bind_some, ha, hr,
    State.handRecord, State.driveBda, State.setPort_rcv, if_neg hzero, State.setPort_port_self, State.setPort_setPort]
  rfl

end

/-- Settles O43, by the position of the frame. -/
theorem servingPortTakesBytes : Obligations.ServingPortTakesBytes := by
  intro s p f v h hs hf hv x kind slot leaves slotEnds
  refine ⟨fun n byte hpos => byteReceived_serving h hf hs hv hpos byte, fun hpos => ⟨byteReceived_refused h hf hs hv hpos,
    turnaroundSlot_refused h hf hs hpos .dominant .dominant, fun presence verdict hr => ?_⟩, ?refusedSlot, ?accepted⟩
  · have hrow := turnaroundSlot_refused h hf hs hpos presence verdict
    rwa [if_neg (readSlot_not_accept hr)] at hrow
  case refusedSlot =>
    intro length hpos hverdict hl hexpected hk stays next
    refine ⟨fun hkind hlen verdict => ?_, fun hkind => ?_, fun hkind => ?_, fun hkind hlen verdict => ?_⟩
    · have hleft := headerSlot_left (presence := .dominant) (verdict := verdict) h hf hs hv hpos hverdict hexpected hl hk
        (by cases verdict <;> simpa [kind, readSlot, goesOn, hkind] using hlen)
      rwa [if_pos hlen] at hleft
    · have hgo : goesOn (Header.frameKind f.rxHeader) length.toNat (readSlot .dominant .dominant) = true := by
        rcases hkind with hkind | ⟨hkind, hlen⟩ <;> simp_all [kind, readSlot, goesOn]
      have hleft := headerSlot_left h hf hs hv hpos hverdict hexpected hl hk hgo
      have hnext : (if 0 < length.toNat then Position.byte 0
          else if Header.frameKind f.rxHeader = .query then .turnaround else .done) = next := by
        rcases hkind with hkind | ⟨-, hlen⟩
        · rw [if_pos (c := Header.frameKind f.rxHeader = .query) hkind]
        · simp only [next, if_pos hlen]
      rwa [hnext] at hleft
    · refine headerSlot_refused h hf hs hv hpos hverdict hexpected ?_
      cases hk' : Header.frameKind f.rxHeader <;> simp_all [kind, readSlot, goesOn]
    · refine headerSlot_refused h hf hs hv hpos hverdict hexpected ?_
      cases hk' : Header.frameKind f.rxHeader <;> simp_all [kind, goesOn]
  case accepted =>
    intro n hn
    have hslot {t : State} (ht : s.afterAccept p f v n .dominant = t) (htp : Plain t p) : slot = .next t :=
      acknowledgeSlot_accepting h hf hs hv hn ht htp
    refine ⟨fun hlt => hslot (afterAccept_byte hlt) (plain_frameAt h),
      fun hle hk => hslot (afterAccept_done hle hk) (plain_frameAt h), fun hit hle hk hh =>
      ⟨fun ha => hslot (afterAccept_replySlot hle hk hh ha) (plain_frameAt h),
        fun ha hr => hslot (afterAccept_cancelled hle hk hh ha hr) (plain_frameAt h),
        fun r ha hr hheld => hslot (afterAccept_holds hle hk hh ha hr hheld) (plain_setPort h h.2)⟩⟩

end Sys2Proof.Machine
end

section
/-!
PROOFS. The target's turnaround and reply, and how it follows the frame once it has been overridden (O44).
-/
namespace Sys2Proof.Machine
open Sys2Proof.Safety

variable {s t : State} {p : PortId} {f g : FrameRec} {v : ServiceRec}

theorem readSlot_accept_iff {presence verdict : Level} :
    readSlot presence verdict = .accept ↔ presence = .dominant ∧ verdict = .dominant := by
  cases presence <;> cases verdict <;> simp [readSlot]

/-! ### What the target gives at the turnaround (R107, R114, R116) -/

section
variable (s : State) (p : PortId)

theorem turnaroundReply_declines (ht : v.turnaround = some .decline) : s.turnaroundReply p v = some .decline := by
  simp [State.turnaroundReply, ht]

theorem turnaroundReply_empty (ht : v.turnaround = some .empty) : s.turnaroundReply p v = some (.reply []) := by
  simp [State.turnaroundReply, ht]

variable {s p}

theorem turnaroundReply_latched {q : QueryDetails} {y : LatchedReply} {r : SubId} (ht : v.turnaround = none)
    (hw : (s.port p).window = .replying q y r) : s.turnaroundReply p v = some y := by
  simp [State.turnaroundReply, ht, hw]

theorem turnaroundReply_snapshot {n : Snapshot} (ht : v.turnaround = none) (hw : (s.port p).window = .none)
    (hn : s.snapshot p = some n) : s.turnaroundReply p v = some (.reply n.data) := by
  simp [State.turnaroundReply, ht, hw, hn]

end

/-! ### What the target sends of its reply (R107) -/

section
variable {x : Port} (hs : x.state = .serving) (ho : f.overridden = false)
include hs ho

/-- R107: the length and the bytes of its reply. -/
theorem sentByte_serving {byte : Byte}
    (hb : (f.position = .replyLength ∧ byte = BitVec.ofNat 8 f.reply.length) ∨
      ∃ n, f.position = .replyByte n ∧ f.reply[n]? = some byte) : s.sentByte x f = some byte := by
  rcases hb with ⟨hpos, rfl⟩ | ⟨n, hpos, hn⟩
  · simp [State.sentByte, hs, hpos, ho]
  · simp [State.sentByte, hs, hpos, ho, hn]

end

/-- R17: once it is overridden the target sends nothing. -/
theorem sentByte_overridden {x : Port} (hs : x.state = .serving) (ho : f.overridden = true) : s.sentByte x f = none := by
  cases hpos : f.position <;> simp [State.sentByte, hs, hpos, ho]

/-! ### Rows of the reply -/

section
variable (h : Plain s p) (hs : (s.port p).state = .serving) (hf : (s.port p).frame = some f) (hv : f.service = some v)
  {presence verdict : Level}
include h hs hf hv

theorem turnaroundSlot_declines (hpos : f.position = .turnaround) (hr : s.turnaroundReply p v = some .decline) :
    exec (.turnaroundSlot p presence verdict) s =
      .next
        (frameAt s p
          { f with
            service := some { v with turnaround := none },
            position := if presence = .dominant ∧ verdict = .dominant then .replyLength else .done,
            overridden := presence == .dominant && verdict == .dominant }
          .released verdict) := by
  refine next_setFrame_driveBda h hf ?_
  have hread : decide (presence = .dominant ∧ verdict = .dominant) = (presence == .dominant && verdict == .dominant) :=
    Bool.decide_and _ _
  simp only [hpos, hs, hv, hr, readSlot_accept_iff, hread]

theorem turnaroundSlot_replies (hpos : f.position = .turnaround) {bytes : List Byte}
    (hr : s.turnaroundReply p v = some (.reply bytes)) :
    exec (.turnaroundSlot p presence verdict) s =
      .next
        (frameAt s p
          { f with service := some { v with turnaround := none }, position := .replyLength, reply := bytes } .drivenLow
          verdict) :=
  next_setFrame_driveBda h hf (by simp only [hpos, hs, hv, hr])

theorem acknowledgeSlot_reply {n : Nat} (hpos : f.position = .replySlot n) (ho : f.overridden = false) {d : Driver}
    (ht : s.replySlotRead p f n (readSlot presence verdict) verdict = (s.setFrame p g verdict).driveBda p d) :
    exec (.acknowledgeSlot p presence verdict) s = .next (frameAt s p g d verdict) := by
  refine acknowledgeSlot_serving h hf hs hv ?_ (plain_frameAt h)
  simp [State.servingSlot, hpos, ho, ht, State.setFrame_driveBda]

/-- R17: an overridden target follows the slots of the reply as an observer does. -/
theorem acknowledgeSlot_overridden {n : Nat} (hpos : f.position = .replySlot n) (ho : f.overridden = true) :
    exec (.acknowledgeSlot p presence verdict) s =
      .next
        (frameAt s p { f with position := f.observedSlot (readSlot presence verdict) } (s.port p).bdaDriver verdict) := by
  refine acknowledgeSlot_serving h hf hs hv ?_ (plain_frameAt h)
  simp [State.servingSlot, hpos, ho, State.setFrame_endBit]

end

section
variable {n : Nat} {verdict : Level}

theorem replySlotRead_last (hn : f.reply.length ≤ n + 1) :
    s.replySlotRead p f n .accept verdict =
      (s.setFrame p { f with position := .done, accepted := f.accepted + 1 } verdict).driveBda p .released := by
  simp [State.replySlotRead, hn]

theorem replySlotRead_next (hn : n + 1 < f.reply.length)
    (ha : ∀ q y r, (s.port p).window = .replying q y r → s.abortPending r = false) :
    s.replySlotRead p f n .accept verdict =
      (s.setFrame p { f with position := .replyByte (n + 1), accepted := f.accepted + 1 } verdict).driveBda p .released := by
  cases hw : (s.port p).window with
  | replying q y r => simp [State.replySlotRead, Nat.not_le.2 hn, hw, ha q y r hw]
  | none | waiting => simp [State.replySlotRead, Nat.not_le.2 hn, hw]

theorem replySlotRead_aborts {q : QueryDetails} {y : LatchedReply} {r : SubId} (hn : n + 1 < f.reply.length)
    (hw : (s.port p).window = .replying q y r) (ha : s.abortPending r = true) :
    s.replySlotRead p f n .accept verdict =
      (s.setFrame p { f with position := .closing, accepted := f.accepted + 1 } verdict).driveBda p .drivenLow := by
  simp [State.replySlotRead, Nat.not_le.2 hn, hw, ha]

theorem replySlotRead_other {reading : SlotReading} (hr : reading ≠ .accept) :
    s.replySlotRead p f n reading verdict = (s.setFrame p { f with position := .done } verdict).driveBda p .released := by
  cases reading with
  | accept => exact absurd rfl hr
  | refuse | absent => rfl

end

section
variable (h : Plain s p) (hs : (s.port p).state = .serving) (hf : (s.port p).frame = some f)
include h hs hf

theorem replyLengthByte_sent (hpos : f.position = .replyLength) (ho : f.overridden = false) {length own : Byte}
    (hown : own = BitVec.ofNat 8 f.reply.length) :
    exec (.replyLengthByte p length) s =
      .next
        (frameAt s p { f with position := afterReplyLength own, replyLength := some own }
          (if own.getLsbD 0 then .released else .drivenLow) (lastLevel own)) := by
  have hsent := sentByte_serving (s := s) hs ho (.inl ⟨hpos, hown⟩)
  exact next_byteSent h hf (by simp [hpos, hs, ho, hsent])

theorem replyByte_sent {n : Nat} (hpos : f.position = .replyByte n) (ho : f.overridden = false) {byte own : Byte}
    (hown : f.reply[n]? = some own) :
    exec (.replyByte p byte) s =
      .next
        (frameAt s p { f with position := .replySlot n } (if own.getLsbD 0 then .released else .drivenLow)
          (lastLevel own)) := by
  have hsent := sentByte_serving (s := s) hs ho (.inr ⟨n, hpos, hown⟩)
  exact next_byteSent h hf (by simp [hpos, hs, ho, hsent])

theorem replyLengthByte_overridden (hpos : f.position = .replyLength) (ho : f.overridden = true) (length : Byte) :
    exec (.replyLengthByte p length) s =
      .next
        (frameAt s p
          { f with
            position := if 1 ≤ length.toNat ∧ length.toNat ≤ 64 then .replyByte 0 else .done, replyLength := some length }
          (s.port p).bdaDriver (lastLevel length)) :=
  next_setFrame h hf (by simp only [hpos, hs, ho, if_true, afterReplyLength_eq]; rfl)

theorem replyByte_overridden {n : Nat} (hpos : f.position = .replyByte n) (ho : f.overridden = true) (byte : Byte) :
    exec (.replyByte p byte) s =
      .next (frameAt s p { f with position := .replySlot n } (s.port p).bdaDriver (lastLevel byte)) :=
  next_setFrame h hf (by simp only [hpos, hs, ho, if_true]; rfl)

/-- R17: dominant on a bit that the target left recessive overrides it. -/
theorem overridden_recessive {bit : Fin 8} {byte : Byte} (hsent : s.sentByte (s.port p) f = some byte)
    (hb : byte.getMsbD bit.val = true) :
    exec (.overridden p bit) s =
      .next
        (s.setPort p
          { edgeSeen (s.port p) s.timeBase .dominant bit with
            bdaDriver := .released, frame := some { f with overridden := true, bit := bit.val } }) := by
  have hrec : (s.port p).state = .serving ∧ s.sentRecessive (s.port p) f bit = true :=
    ⟨hs, by simp [State.sentRecessive, hsent, hb]⟩
  refine next_inFrame h hf ?_ (plain_setPort h h.2)
  rw [if_pos hrec, Port.clocked_eq]

omit hs in
theorem overridden_not_recessive {bit : Fin 8} (hb : s.sentRecessive (s.port p) f bit = false) :
    exec (.overridden p bit) s = .next s :=
  next_inFrame h hf (if_neg (by simp [hb])) h

end

/-- Settles O44, by the position of the frame. -/
theorem servingPortReplies : Obligations.ServingPortReplies := by
  intro s p f v h hs hf hv x g sent
  refine ⟨fun presence verdict hpos => ?turnaround, fun length ho hpos hlen => ?length,
    fun n byte own ho hpos hown => replyByte_sent h hs hf hpos ho hown, fun n presence verdict ho hpos => ?slot,
    fun bit byte ho hb => ?bit, fun ho => ?overridden⟩
  case turnaround =>
    intro declines sends
    exact ⟨fun ht => turnaroundSlot_declines h hs hf hv hpos (turnaroundReply_declines s p ht),
      fun ht => turnaroundSlot_replies h hs hf hv hpos (turnaroundReply_empty s p ht),
      fun q r ht hw => turnaroundSlot_declines h hs hf hv hpos (turnaroundReply_latched ht hw),
      fun q r bytes ht hw => turnaroundSlot_replies h hs hf hv hpos (turnaroundReply_latched ht hw),
      fun n ht hw hn => turnaroundSlot_replies h hs hf hv hpos (turnaroundReply_snapshot ht hw hn)⟩
  case length =>
    intro own
    have hval : own.toNat = f.reply.length := by simp only [own, BitVec.toNat_ofNat]; omega
    have hpos' : afterReplyLength own = if f.reply = [] then .done else .replyByte 0 := by
      rw [afterReplyLength_eq, hval]
      by_cases hnil : f.reply = []
      · simp [hnil]
      · rw [if_pos ⟨List.length_pos_iff.2 hnil, hlen⟩, if_neg hnil]
    have hrow := replyLengthByte_sent h hs hf hpos ho (length := length) (own := own) rfl
    rwa [hpos'] at hrow
  case slot =>
    refine ⟨?_, ?_, ?_, fun hr => ?_⟩
    · rintro rfl rfl hn
      exact acknowledgeSlot_reply h hs hf hv hpos ho (replySlotRead_last hn)
    · rintro rfl rfl hn ha
      exact acknowledgeSlot_reply h hs hf hv hpos ho (replySlotRead_next hn ha)
    · rintro q y r rfl rfl hn hw ha
      exact acknowledgeSlot_reply h hs hf hv hpos ho (replySlotRead_aborts hn hw ha)
    · exact acknowledgeSlot_reply h hs hf hv hpos ho (replySlotRead_other (readSlot_not_accept hr))
  case bit =>
    have hsent : s.sentByte (s.port p) f = some byte := sentByte_serving hs ho hb
    exact ⟨overridden_recessive h hs hf hsent,
      fun hbit => overridden_not_recessive h hf (by simp [State.sentRecessive, hsent, hbit])⟩
  case overridden =>
    intro goes
    have hslot {n : Nat} (hpos : f.position = .replySlot n) {presence verdict : Level} {position : Position}
        (hp : f.observedSlot (readSlot presence verdict) = position) :
        goes (.acknowledgeSlot p presence verdict) position verdict := by
      simp only [goes, acknowledgeSlot_overridden h hs hf hv hpos ho, hp]
      rfl
    refine ⟨fun bit => overridden_not_recessive h hf (by simp [State.sentRecessive, sentByte_overridden hs ho]),
      fun length hpos => replyLengthByte_overridden h hs hf hpos ho length,
      fun n byte hpos => replyByte_overridden h hs hf hpos ho byte,
      fun n reply hpos hr => ⟨fun hn => hslot hpos ?_, fun hn => hslot hpos ?_, fun presence verdict hr' => hslot hpos ?_⟩⟩
    · exact (observedSlot_replySlot_accept hpos hr).trans (if_pos hn)
    · exact (observedSlot_replySlot_accept hpos hr).trans (if_neg (by omega))
    · exact observedSlot_replySlot_other hpos (readSlot_not_accept hr')

end Sys2Proof.Machine
end

section
/-!
PROOFS. The initiator's sequence, byte by byte and slot by slot (O45).
-/
namespace Sys2Proof.Machine
open Sys2Proof.Safety

variable {s t : State} {p : PortId} {f g : FrameRec} {r : SubId} {x : StagedXfer} {e : ExecRec} {d : Desc}

/-! ### A frame that goes on, or whose closing follows (R6) -/

theorem goesAt_of_closing {bda : Driver} {last : Level} (hg : g.position = .closing) :
    goesAt s p g bda last = closesAt s p g last := if_pos hg

theorem goesAt_of_not_closing {bda : Driver} {last : Level} (hg : g.position ≠ .closing) :
    goesAt s p g bda last = frameAt s p g bda last := if_neg hg

theorem closesAt_closesWith {bda : Driver} {last : Level} {res : AttemptResult} :
    goesAt s p (closesWith f res) bda last = closesAt s p (closesWith f res) last := if_pos rfl

/-! ### What a slot leads to (R14 to R18, R64) -/

/-- R15, R16, R18: where the sequence goes on when `n` bytes have been sent. -/
def FrameRec.goesOn (f : FrameRec) (d : Desc) (n : Nat) : FrameRec :=
  if n < d.outLength then { f with position := .byte n }
  else if d.kind = .query then { f with position := .turnaround }
  else closesWith f .success

/-- R14, R64: where an initiator that must close ends the sequence when `n` bytes have been sent. -/
def FrameRec.stops (f : FrameRec) (d : Desc) (n : Nat) : FrameRec :=
  if d.outLength ≤ n ∧ d.kind ≠ .query then closesWith f .success else { f with position := .closing, result := none }

theorem orClose_of_closing {must : Bool} (hg : g.position = .closing) : g.orClose must = g := by
  simp [FrameRec.orClose, hg]

theorem orClose_closesWith {must : Bool} {res : AttemptResult} : (closesWith f res).orClose must = closesWith f res :=
  orClose_of_closing rfl

theorem goesOn_orClose {n : Nat} : (f.goesOn d n).orClose true = f.stops d n := by
  unfold FrameRec.goesOn FrameRec.stops
  by_cases hn : n < d.outLength
  · rw [if_pos hn, if_neg (by omega)]
    rfl
  · rw [if_neg hn]
    by_cases hk : d.kind = .query
    · rw [if_pos hk, if_neg (by simp [hk])]
      rfl
    · rw [if_neg hk, if_pos ⟨Nat.not_lt.1 hn, hk⟩, orClose_closesWith]

theorem afterHeaderSlot_absent : f.afterHeaderSlot d .absent = closesWith f .noTarget := rfl

theorem afterHeaderSlot_refuse (hk : d.kind ≠ .notice) : f.afterHeaderSlot d .refuse = closesWith f .refused := if_neg hk

theorem afterHeaderSlot_notice (hk : d.kind = .notice) : f.afterHeaderSlot d .refuse = f.goesOn d 0 := if_pos hk

section
variable {n : Nat}

theorem afterByteSlot_accept : f.afterByteSlot d n .accept = { f with moved := n + 1 }.goesOn d (n + 1) := by
  simp only [FrameRec.afterByteSlot, ite_self]
  rfl

theorem afterByteSlot_notice {reading : SlotReading} (hk : d.kind = .notice) :
    f.afterByteSlot d n reading = { f with moved := n + 1 }.goesOn d (n + 1) := if_pos hk

theorem afterByteSlot_refuse (hk : d.kind ≠ .notice) : f.afterByteSlot d n .refuse = closesWith f .refused := if_neg hk

theorem afterByteSlot_absent (hk : d.kind ≠ .notice) : f.afterByteSlot d n .absent = closesWith f .framing := if_neg hk

end

/-! ### The rows -/

section
variable (h : Plain s p) (hs : (s.port p).state = .initiating) (hf : (s.port p).frame = some f) (ht : f.turn = some r)
  {presence verdict : Level}

theorem mustClose_eq (ht : f.turn = some r) : s.mustClose f = (f.givenUp || s.abortPending r) := by
  simp [State.mustClose, ht]

include h hs hf

omit hs in
/-- R6: a row after which an initiator's frame goes on or its closing follows. -/
theorem next_initiatorGoes {act leaves : Port → FrameRec → State} {bda : Driver} {last : Level}
    (ht : act (s.port p) f = s.initiatorGoes p g bda last) :
    Host.Outcome.next (s.inFrame p act leaves) = (.next (goesAt s p g bda last) : Answer) :=
  next_inFrame h hf (ht.trans State.initiatorGoes_eq) (plain_goesAt h)

theorem turnaroundSlot_initiating (hpos : f.position = .turnaround) :
    exec (.turnaroundSlot p presence verdict) s =
      .next (goesAt s p (f.afterTurnaround (readSlot presence verdict)) .released verdict) :=
  next_initiatorGoes h hf (by simp only [hpos, hs])

theorem replyLengthByte_initiating (hpos : f.position = .replyLength) (length : Byte) :
    exec (.replyLengthByte p length) s =
      .next (goesAt s p (f.takeReplyLength length) (s.port p).bdaDriver (lastLevel length)) :=
  next_initiatorGoes h hf (by simp only [hpos, hs]; rfl)

include ht

theorem acknowledgeSlot_initiating (hy : s.stagedOf r = some x)
    (ht' : s.initiatorSlot p f r x.desc (readSlot presence verdict) verdict = t) (htp : Plain t p) :
    exec (.acknowledgeSlot p presence verdict) s = .next t :=
  next_inFrame h hf (by simpa only [hs, ht, hy] using ht') htp

theorem acknowledgeSlot_goes (hy : s.stagedOf r = some x) {bda : Driver}
    (hg : s.initiatorSlot p f r x.desc (readSlot presence verdict) verdict = s.initiatorGoes p g bda verdict) :
    exec (.acknowledgeSlot p presence verdict) s = .next (goesAt s p g bda verdict) :=
  acknowledgeSlot_initiating h hs hf ht hy (hg.trans State.initiatorGoes_eq) (plain_goesAt h)

theorem byteReceived_initiating (hy : s.stagedOf r = some x) {n : Nat} (hpos : f.position = .byte n) {byte own : Byte}
    (hown : x.payload[n]? = some own) :
    exec (.byteReceived p byte) s =
      .next
        (frameAt s p { f with position := .byteSlot n } (if own.getLsbD 0 then .released else .drivenLow)
          (lastLevel own)) := by
  have hsent := sentByte_initiating hs ht hy (.inr (.inr ⟨n, hpos, hown⟩))
  exact next_byteSent h hf (by simp only [hpos, hs, hsent])

section
variable (he : s.execOf r = some (x, e)) {n : Nat} (hpos : f.position = .replyByte n) {byte : Byte}
include he hpos

theorem replyByte_taken (hn : n < x.desc.replyCapacity) (hmust : s.mustClose f = false) :
    exec (.replyByte p byte) s =
      .next
        (frameAt (withExec s r x { e with replyArea := e.replyArea ++ [byte] }) p { f with position := .replySlot n }
          .released (lastLevel byte)) := by
  refine next_inFrame h hf ?_ (plain_frameAt (s := withExec s r x { e with replyArea := e.replyArea ++ [byte] }) h)
  simp only [hpos, hs, ht, State.takeReplyByte, he]
  rw [if_neg (by simp [hmust, hn]), State.setFrame_driveBda]
  rfl

theorem replyByte_refused (hno : x.desc.replyCapacity ≤ n ∨ s.mustClose f = true) :
    exec (.replyByte p byte) s =
      .next (frameAt s p { f with position := .replySlot n, refusing := true } .released (lastLevel byte)) := by
  refine next_setFrame_driveBda h hf ?_
  simp only [hpos, hs, ht, State.takeReplyByte, he]
  rw [if_pos hno]
  rfl

end

section
variable (hy : s.stagedOf r = some x) {must : Bool} (hmust : s.mustClose f = must) (hpos : f.position = .headerSlot)
include hy hmust hpos

theorem headerSlot_initiating (hg : (f.afterHeaderSlot x.desc (readSlot presence verdict)).orClose must = g) :
    exec (.acknowledgeSlot p presence verdict) s = .next (goesAt s p g .released verdict) :=
  acknowledgeSlot_goes h hs hf ht hy (by simp only [State.initiatorSlot, hpos, hmust, hg])

theorem headerSlot_closes {res : AttemptResult}
    (hg : f.afterHeaderSlot x.desc (readSlot presence verdict) = closesWith f res) :
    exec (.acknowledgeSlot p presence verdict) s = .next (closesAt s p (closesWith f res) verdict) := by
  rw [headerSlot_initiating h hs hf ht hy hmust hpos rfl, hg, orClose_closesWith, closesAt_closesWith]

end

section
variable (hy : s.stagedOf r = some x) {must : Bool} (hmust : s.mustClose f = must) {n : Nat} (hpos : f.position = .byteSlot n)
include hy hmust hpos

theorem byteSlot_initiating (hg : (f.afterByteSlot x.desc n (readSlot presence verdict)).orClose must = g) :
    exec (.acknowledgeSlot p presence verdict) s = .next (goesAt s p g .released verdict) :=
  acknowledgeSlot_goes h hs hf ht hy (by simp only [State.initiatorSlot, hpos, hmust, hg])

theorem byteSlot_closes {res : AttemptResult}
    (hg : f.afterByteSlot x.desc n (readSlot presence verdict) = closesWith f res) :
    exec (.acknowledgeSlot p presence verdict) s = .next (closesAt s p (closesWith f res) verdict) := by
  rw [byteSlot_initiating h hs hf ht hy hmust hpos rfl, hg, orClose_closesWith, closesAt_closesWith]

end

section
variable (hy : s.stagedOf r = some x) {n : Nat} (hpos : f.position = .replySlot n) {length : Byte}
  (hl : f.replyLength = some length)
include hy hpos hl

/-- R17: the slot of a reply byte, unless it reads ACCEPT in place of the port's REFUSE and the target sends on. -/
theorem replySlot_initiating
    (hno : ¬ (f.refusing = true ∧ readSlot presence verdict = .accept ∧ n + 1 < length.toNat)) :
    exec (.acknowledgeSlot p presence verdict) s =
      .next (goesAt s p (f.afterReplySlot x.desc n) (driverOfBit f.refusing) verdict) :=
  acknowledgeSlot_goes h hs hf ht hy (by simp only [State.initiatorSlot, hpos, hl, Option.getD_some, if_neg hno])

/-- R12: a REFUSE that reads ACCEPT ends the port's part in the frame (notes/assumptions/28.md). -/
theorem replySlot_goes_on (hr : f.refusing = true) (hn : n + 1 < length.toNat) {res : Option AttemptResult}
    (hres : res = if f.givenUp then some .holdTimeout else if x.desc.replyCapacity ≤ n then some .truncated else none) :
    exec (.acknowledgeSlot p .dominant .dominant) s =
      .next
        ((s.setPort p (observes (s.port p) { f with position := .replyByte (n + 1) } s.timeBase .dominant)).attemptOver p
          (observes (s.port p) { f with position := .replyByte (n + 1) } s.timeBase .dominant) r res f.moved) := by
  refine acknowledgeSlot_initiating h hs hf ht hy ?_ (plain_attemptOver (plain_observes h) h.2)
  have hyes : f.refusing = true ∧ readSlot .dominant .dominant = .accept ∧ n + 1 < length.toNat := ⟨hr, rfl, hn⟩
  simp only [State.initiatorSlot, hpos, hl, Option.getD_some, if_pos hyes, State.refusedReplyGoesOn, State.observeFrame_eq,
    State.setPort_port_self, hres]

end

end

/-- R27, R53: a failed result, as the obligation's conditions name it. -/
theorem failed_of_refusal {givenUp truncated : Prop} [Decidable givenUp] [Decidable truncated] {res : Option AttemptResult}
    (hres : res = if givenUp then some .holdTimeout else if truncated then some .truncated else none) :
    (res.getD .framing).failed = true ↔ res ≠ some .truncated := by
  subst hres
  split_ifs <;> simp [AttemptResult.failed]

/-- Settles O45, by the position of the frame. -/
theorem initiatorFollowsSequence : Obligations.InitiatorFollowsSequence := by
  intro s p r f x e h hs hf ht he d slot next stops
  obtain ⟨hy, -, -, -⟩ := State.staged_of_execOf he
  have hmust : s.mustClose f = (f.givenUp || s.abortPending r) := mustClose_eq ht
  refine ⟨fun hg ha => ?goes, fun n byte own hpos hown => byteReceived_initiating h hs hf ht hy hpos hown, fun hg => ?mustClose,
    fun n byte hpos hno => replyByte_refused h hs hf ht he hpos ?refuses, fun hpos => ?turnaround, fun length hpos => ?replyLength,
    fun n length presence verdict hpos hl => ?replySlot⟩
  case refuses =>
    rw [hmust, Bool.or_eq_true]
    tauto
  case goes =>
    have hmay : s.mustClose f = false := by rw [hmust, hg, ha]; rfl
    refine ⟨fun hpos => ?header, fun n hpos => ?byte, fun n byte hpos hn => replyByte_taken h hs hf ht he hpos hn hmay⟩
    case header =>
      exact ⟨fun verdict => headerSlot_closes h hs hf ht hy hmay hpos afterHeaderSlot_absent,
        fun hk => headerSlot_closes h hs hf ht hy hmay hpos (afterHeaderSlot_refuse hk),
        headerSlot_initiating h hs hf ht hy hmay hpos rfl,
        fun hk => headerSlot_initiating h hs hf ht hy hmay hpos (afterHeaderSlot_notice hk)⟩
    case byte =>
      exact ⟨byteSlot_initiating h hs hf ht hy hmay hpos afterByteSlot_accept,
        fun hk presence verdict => byteSlot_initiating h hs hf ht hy hmay hpos (afterByteSlot_notice hk),
        fun hk => byteSlot_closes h hs hf ht hy hmay hpos (afterByteSlot_refuse hk),
        fun hk verdict => byteSlot_closes h hs hf ht hy hmay hpos (afterByteSlot_absent hk)⟩
  case mustClose =>
    have hmust : s.mustClose f = true := by rw [hmust, Bool.or_eq_true]; exact hg
    refine ⟨fun hpos => ?header, fun n hpos => ?byte⟩
    case header =>
      exact ⟨fun verdict => headerSlot_closes h hs hf ht hy hmust hpos afterHeaderSlot_absent,
        fun hk => headerSlot_closes h hs hf ht hy hmust hpos (afterHeaderSlot_refuse hk),
        headerSlot_initiating h hs hf ht hy hmust hpos goesOn_orClose,
        fun hk => headerSlot_initiating h hs hf ht hy hmust hpos
          ((congrArg (FrameRec.orClose · true) (afterHeaderSlot_notice hk)).trans goesOn_orClose)⟩
    case byte =>
      exact ⟨byteSlot_initiating h hs hf ht hy hmust hpos
          ((congrArg (FrameRec.orClose · true) afterByteSlot_accept).trans goesOn_orClose),
        fun hk presence verdict => byteSlot_initiating h hs hf ht hy hmust hpos
          ((congrArg (FrameRec.orClose · true) (afterByteSlot_notice hk)).trans goesOn_orClose),
        fun hk => byteSlot_closes h hs hf ht hy hmust hpos (afterByteSlot_refuse hk),
        fun hk verdict => byteSlot_closes h hs hf ht hy hmust hpos (afterByteSlot_absent hk)⟩
  case turnaround =>
    refine ⟨fun verdict => ?_, ?_, ?_⟩
    · exact (turnaroundSlot_initiating h hs hf hpos).trans (congrArg _ closesAt_closesWith)
    · exact (turnaroundSlot_initiating h hs hf hpos).trans (congrArg _ closesAt_closesWith)
    · exact (turnaroundSlot_initiating h hs hf hpos).trans (congrArg _ (goesAt_of_not_closing (by simp [readSlot, FrameRec.afterTurnaround])))
  case replyLength =>
    intro g takes
    have htakes {y : FrameRec} (hy : f.takeReplyLength length = y) : takes y := by
      simp only [takes, replyLengthByte_initiating h hs hf hpos length, hy]
    have hzero : length = 0 ↔ length.toNat = 0 := by rw [BitVec.toNat_eq]; rfl
    refine ⟨fun hlong => htakes ?_, fun hnone => htakes ?_, fun hone hshort => htakes ?_⟩
    · exact if_pos hlong
    · simp only [FrameRec.takeReplyLength, hzero, hnone, Config.maxLength]
      rfl
    · simp only [FrameRec.takeReplyLength, hzero, Config.maxLength]
      rw [if_neg (by omega), if_neg (by omega)]
  case replySlot =>
    refine ⟨fun hr hn => ?_, fun hr hn => ?_, fun hr hno => ?_, fun hr hp hv hn => ?_⟩
    · refine (replySlot_initiating h hs hf ht hy hpos hl (by simp [hr])).trans (congrArg _ ?_)
      have hafter : f.afterReplySlot x.desc n = { f with position := .replyByte (n + 1) } := by
        simp [FrameRec.afterReplySlot, hr, hl, hn]
      rw [hafter, goesAt_of_not_closing (by simp), hr]
      rfl
    · refine (replySlot_initiating h hs hf ht hy hpos hl (by simp [hr])).trans (congrArg _ ?_)
      have hafter : f.afterReplySlot x.desc n = closesWith f .success := by
        simp only [FrameRec.afterReplySlot, hr, hl, Option.getD_some, if_neg (Nat.not_lt.2 hn)]
        rfl
      rw [hafter, closesAt_closesWith]
    · have hnot : ¬ (f.refusing = true ∧ readSlot presence verdict = .accept ∧ n + 1 < length.toNat) := by
        rintro ⟨-, hread, hlt⟩
        rcases hno with hno | hno | hno
        · exact readSlot_not_accept (.inl hno) hread
        · exact readSlot_not_accept (.inr hno) hread
        · omega
      refine (replySlot_initiating h hs hf ht hy hpos hl hnot).trans (congrArg _ ?_)
      have hafter : f.afterReplySlot x.desc n = f.close (if x.desc.replyCapacity ≤ n then some .truncated else none) :=
        if_pos hr
      rw [hafter]
      exact goesAt_of_closing rfl
    · intro res y
      subst hp hv
      refine (replySlot_goes_on h hs hf ht hy hpos hl hr hn rfl).trans (congrArg _ ?_)
      rw [State.attemptOver_eq, State.setPort_setPort]
      simp only [failed_of_refusal rfl]
      rfl

end Sys2Proof.Machine
end

section
/-!
PROOFS. Holds, line edges within a frame, the hold ceiling and a clash (O46). What the port drives on BDA in a held bit comes
first, by its state and the position of its frame.
-/
namespace Sys2Proof.Machine
open Sys2Proof.Safety

variable {s t : State} {p : PortId} {f g : FrameRec} {v : ServiceRec} {x : Port} {bit : Fin 8}

/-! ### What the port drives in a bit (R4, R11, R12, R16, R17) -/

/-- R12: what a port drives in a slot that it answers with REFUSE. -/
def refusesIn (bit : Fin 8) : Driver := if bit = 0 then .drivenLow else .released

theorem bdaInBit_of_sent {byte : Byte}
    (hpos : (x.state = .initiating ∧ ((f.position = .channelByte) ∨ f.position = .lengthByte ∨ ∃ n, f.position = .byte n)) ∨
      (x.state = .serving ∧ (f.position = .replyLength ∨ ∃ n, f.position = .replyByte n)))
    (hsent : s.sentByte x f = some byte) :
    s.bdaInBit p x f bit = if byte.getMsbD bit.val = true then .released else .drivenLow := by
  rcases hpos with ⟨hs, hpos | hpos | ⟨n, hpos⟩⟩ | ⟨hs, hpos | ⟨n, hpos⟩⟩ <;>
    simp only [State.bdaInBit, hs, hpos, hsent, driverOfBit]

section
variable (hs : x.state = .initiating)
include hs

theorem bdaInBit_initiating_released
    (hpos : f.position = .headerSlot ∨ (∃ n, f.position = .byteSlot n) ∨ f.position = .turnaround ∨
      f.position = .replyLength ∨ ∃ n, f.position = .replyByte n) : s.bdaInBit p x f bit = .released := by
  rcases hpos with hpos | ⟨n, hpos⟩ | hpos | hpos | ⟨n, hpos⟩ <;> simp only [State.bdaInBit, State.sentByte, hs, hpos]

theorem bdaInBit_initiating_replySlot {n : Nat} (hpos : f.position = .replySlot n) :
    s.bdaInBit p x f bit = if f.refusing = true then refusesIn bit else .drivenLow := by
  cases hr : f.refusing <;> simp [State.bdaInBit, hs, hpos, hr, refusesIn]

theorem bdaInBit_initiating_closing (hpos : f.position = .closing) : s.bdaInBit p x f bit = .drivenLow := by
  simp only [State.bdaInBit, hs, hpos]

end

section
variable (hs : x.state = .serving)
include hs

theorem bdaInBit_serving_released
    (hpos : f.position = .channelByte ∨ f.position = .lengthByte ∨ (∃ n, f.position = .byte n) ∨
      (∃ n, f.position = .replySlot n) ∨ f.position = .done ∨ f.position = .refused) :
    s.bdaInBit p x f bit = .released := by
  rcases hpos with hpos | hpos | ⟨n, hpos⟩ | ⟨n, hpos⟩ | hpos | hpos <;> simp only [State.bdaInBit, State.sentByte, hs, hpos]

theorem bdaInBit_serving_low (hpos : (∃ n, f.position = .byteSlot n) ∨ f.position = .closing) :
    s.bdaInBit p x f bit = .drivenLow := by
  rcases hpos with ⟨n, hpos⟩ | hpos <;> simp [State.bdaInBit, hs, hpos]

theorem bdaInBit_serving_overridden (hpos : f.position = .replyLength ∨ ∃ n, f.position = .replyByte n)
    (ho : f.overridden = true) : s.bdaInBit p x f bit = .released := by
  rcases hpos with hpos | ⟨n, hpos⟩ <;> simp only [State.bdaInBit, hs, hpos, sentByte_overridden hs ho]

variable (hv : f.service = some v)
include hv

theorem bdaInBit_headerSlot_accept (hpos : f.position = .headerSlot) (hverdict : v.verdict = some .accept) :
    s.bdaInBit p x f bit = .drivenLow := by simp [State.bdaInBit, hs, hpos, hv, hverdict]

theorem bdaInBit_headerSlot_refuse (hpos : f.position = .headerSlot) (hverdict : v.verdict = some .refuse) :
    s.bdaInBit p x f bit = refusesIn bit := by simp [State.bdaInBit, hs, hpos, hv, hverdict, refusesIn]

theorem bdaInBit_turnaround_declines (hpos : f.position = .turnaround) (hr : s.turnaroundReply p v = some .decline) :
    s.bdaInBit p x f bit = refusesIn bit := by simp [State.bdaInBit, hs, hpos, hv, hr, refusesIn]

theorem bdaInBit_turnaround_replies (hpos : f.position = .turnaround) {bytes : List Byte}
    (hr : s.turnaroundReply p v = some (.reply bytes)) : s.bdaInBit p x f bit = .drivenLow := by
  simp [State.bdaInBit, hs, hpos, hv, hr]

end

/-! ### A hold (R13, R21) -/

/-- R21: BDA's low time in a held bit, by what the port drives there. -/
theorem bckHeld_eq {now : Time} {bit : Nat} {bda : Driver} :
    x.bckHeld now bit bda =
      { x with
        bckLowSince := some (Safety.lastFall x now bit), silenceSince := none, bdaDriver := bda,
        bdaLowSince :=
          if bda = .drivenLow then some (Safety.bdaLowAt x now bit)
          else lowAfterFall x.bdaLowSince (Safety.lastFall x now bit) } := by
  simp only [Port.bckHeld, Port.lastFall_eq, Port.bdaLowAt_eq]
  by_cases hd : bda = .drivenLow
  · rw [if_pos (.inl hd), if_pos hd]
  · cases hlow : x.bdaLowSince <;> simp [hd, Safety.bdaLowAt, lowAfterFall, hlow]

section
variable (h : Plain s p) (hf : (s.port p).frame = some f)
include h hf

/-- R13: the port meets a hold in a bit in which it drives BDA as `bda` says. -/
theorem hold_eq {bda : Driver} (hs : (s.port p).state = .initiating ∨ (s.port p).state = .observing ∨
      (s.port p).state = .arbitrating ∨ (s.port p).state = .serving) (hbda : s.bdaInBit p (s.port p) f bit = bda) :
    exec (.hold p bit) s =
      .next
        (s.setPort p
          { s.port p with
            frame := some
              { f with
                bit := bit.val, held := true,
                holdSince := if (s.port p).state = .initiating then some s.timeBase else f.holdSince },
            bckLowSince := some (Safety.lastFall (s.port p) s.timeBase bit), silenceSince := none, bdaDriver := bda,
            bdaLowSince :=
              if bda = .drivenLow then some (Safety.bdaLowAt (s.port p) s.timeBase bit)
              else lowAfterFall (s.port p).bdaLowSince (Safety.lastFall (s.port p) s.timeBase bit) }) := by
  refine next_inFrame h hf ?_ (plain_setPort h h.2)
  rcases hs with hs | hs | hs | hs
  · simp only [hs, hbda, bckHeld_eq, if_true]
  all_goals
    simp only [hs, hbda, bckHeld_eq]
    rfl

/-! ### Edges of the lines within a frame (R20, R21) -/

omit hf in
theorem lineGoesLow_inFrame {line : Line} {moment : LineMoment}
    (hs : (s.port p).state = .arbitrating ∨ (s.port p).state = .observing ∨ (s.port p).state = .serving ∨
      (s.port p).state = .initiating) (hx : (s.port p).lineInFrame line moment s.timeBase = x)
    (hstop : x.stopPending = false) : exec (.lineGoesLow p line moment) s = .next (s.setPort p x) := by
  refine next_event h ?_ (plain_setPort h hstop)
  rcases hs with hs | hs | hs | hs <;> simp only [hs, hx]

end

theorem lineInFrame_bck_falls {now : Time} (hf : x.frame = some f) :
    x.lineInFrame .bck .falls now =
      { x with
        bckLowSince := some now, bdaLowSince := if x.bdaLowSince = none then none else some now, silenceSince := none,
        frame := some { f with held := false } } := by
  cases hlow : x.bdaLowSince <;> simp [Port.lineInFrame, Port.bckFalls, hf, hlow]

theorem lineInFrame_bck_rises {now : Time} (hf : x.frame = some f) :
    x.lineInFrame .bck .rises now =
      { x with bckLowSince := none, silenceSince := some now, frame := some { f with holdSince := none } } := by
  simp [Port.lineInFrame, hf]

/-! ### The hold ceiling and a clash (R14, R11, R27) -/

section
variable (h : Plain s p) (hf : (s.port p).frame = some f) (hs : (s.port p).state = .initiating)
include h hf hs

theorem holdCeilingPassed_at {t : Time} (ht : f.holdSince = some t)
    (hnow : s.timeBase = t + BitVec.ofNat 32 (s.port p).config.holdCeiling) :
    exec (.holdCeilingPassed p) s = .next (s.setPort p { s.port p with frame := some { f with givenUp := true } }) := by
  refine next_event h ?_ (plain_setPort h h.2)
  have hheld : (s.port p).state = .initiating ∧ f.holdSince.isSome = true := ⟨hs, by rw [ht]; rfl⟩
  have hdue : dueAfter f.holdSince (s.port p).config.holdCeiling s.timeBase = s.timeBase := by
    rw [ht, dueAfter, micros, ← hnow, reach_self]
  simp only [State.onFrame, hf]
  rw [if_pos hheld, hdue]

variable {r : SubId} (ht : f.turn = some r)
include ht

theorem clash_not_recessive (hb : s.sentRecessive (s.port p) f bit = false) : exec (.clash p bit) s = .next s :=
  next_inFrame h hf (by simp [hs, ht, hb]) h

/-- R27: a clash ends the attempt, and the port follows the frame. -/
theorem clash_recessive (hb : s.sentRecessive (s.port p) f bit = true) :
    exec (.clash p bit) s =
      .next
        ((s.setPort p
          { edgeSeen (s.port p) s.timeBase .dominant bit with
            state := .observing, bckDriver := .released, bdaDriver := .released, busView := .busy,
            idleSince := none, idleFull := false, recovery := none,
            frame := some { f with role := .observer, bit := bit.val, holdSince := none, turn := none, service := none },
            stats :=
              { (s.port p).stats with
                clashes := (s.port p).stats.clashes + 1,
                attemptsFailed :=
                  if s.abortPending r = true then (s.port p).stats.attemptsFailed
                  else (s.port p).stats.attemptsFailed + 1 } }).endAttempt r (some .clash) f.moved) := by
  have hcounts : (if ((some AttemptResult.clash).getD .framing).failed = true ∧ (s.count p .clashes).abortPending r = false
        then (s.port p).stats.attemptsFailed + 1 else (s.port p).stats.attemptsFailed) =
      if s.abortPending r = true then (s.port p).stats.attemptsFailed else (s.port p).stats.attemptsFailed + 1 := by
    have ha : (s.count p .clashes).abortPending r = s.abortPending r := rfl
    rw [ha]
    cases s.abortPending r <;> rfl
  refine next_inFrame (t := (s.count p .clashes).attemptOver p
    ((((s.count p .clashes).port p).clocked s.timeBase .dominant bit).toObserving
      { f with bit := bit.val, holdSince := none }) r (some .clash) f.moved) h hf
    (by simp only [hs, ht, hb, if_true]) (plain_attemptOver (plain_count h) (plain_count h).2) |>.trans (congrArg _ ?_)
  rw [State.attemptOver_eq, State.count, State.setPort_setPort, State.setPort_port_self, Port.clocked_eq, ← hcounts]
  rfl

end

/-- Settles O46: the held bit by the state and the position, then the edges, the ceiling and the clash. -/
theorem holdsAndClashesOfInitiator : Obligations.HoldsAndClashesOfInitiator := by
  intro s p f h hf x
  refine ⟨fun bit => ?held, fun t hs ht hnow => holdCeilingPassed_at h hf hs ht hnow, fun hs => ?edges,
    fun r y bit byte hs ht hy hb => ?clash⟩
  case edges =>
    exact ⟨lineGoesLow_inFrame h hs (lineInFrame_bck_falls hf) h.2, lineGoesLow_inFrame h hs (lineInFrame_bck_rises hf) h.2,
      lineGoesLow_inFrame h hs rfl h.2, lineGoesLow_inFrame h hs rfl h.2⟩
  case clash =>
    have hsent : s.sentByte x f = some byte := sentByte_initiating hs ht hy hb
    exact ⟨fun hbit => clash_not_recessive h hf hs ht (by simp [State.sentRecessive, x, hsent, hbit]),
      fun hbit => clash_recessive h hf hs ht (by simp [State.sentRecessive, x, hsent, hbit])⟩
  case held =>
    intro holds drives accepts refuses
    have hholds {bda : Driver} (hs : x.state = .initiating ∨ x.state = .observing ∨ x.state = .arbitrating ∨
        x.state = .serving) (hbda : s.bdaInBit p x f bit = bda) : holds bda := hold_eq h hf hs hbda
    refine ⟨fun hs => hholds (.inr (.inl hs)) (State.bdaInBit_of_observing hs),
      fun hs => hholds (.inr (.inr (.inl hs))) (State.bdaInBit_of_arbitrating hs), fun hs => ?initiating, fun hs => ?serving⟩
    case initiating =>
      have hin {bda : Driver} := hholds (bda := bda) (.inl hs)
      refine ⟨fun hpos => hin (bdaInBit_initiating_released hs hpos), fun n hpos => ⟨fun hr => hin ?_, fun hr => hin ?_⟩,
        fun hpos => hin (bdaInBit_initiating_closing hs hpos), fun r y byte ht hy hb => hin ?_⟩
      · rw [bdaInBit_initiating_replySlot hs hpos, hr]
        rfl
      · rw [bdaInBit_initiating_replySlot hs hpos, if_pos hr]
        rfl
      · refine bdaInBit_of_sent (.inl ⟨hs, ?_⟩) (sentByte_initiating hs ht hy hb)
        rcases hb with ⟨hpos, -⟩ | ⟨hpos, -⟩ | ⟨n, hpos, -⟩
        · exact .inl hpos
        · exact .inr (.inl hpos)
        · exact .inr (.inr ⟨n, hpos⟩)
    case serving =>
      have hin {bda : Driver} := hholds (bda := bda) (.inr (.inr (.inr hs)))
      exact ⟨fun hpos => hin (bdaInBit_serving_released hs hpos), fun hpos => hin (bdaInBit_serving_low hs hpos),
        fun v hv => ⟨fun hpos hverdict => hin (bdaInBit_headerSlot_accept hs hv hpos hverdict),
          fun hpos hverdict => hin (bdaInBit_headerSlot_refuse hs hv hpos hverdict), fun hpos =>
          ⟨fun ht => hin (bdaInBit_turnaround_declines hs hv hpos (turnaroundReply_declines s p ht)),
            fun ht => hin (bdaInBit_turnaround_replies hs hv hpos (turnaroundReply_empty s p ht)),
            fun q r ht hw => hin (bdaInBit_turnaround_declines hs hv hpos (turnaroundReply_latched ht hw)),
            fun q r bytes ht hw => hin (bdaInBit_turnaround_replies hs hv hpos (turnaroundReply_latched ht hw)),
            fun n ht hw hn => hin (bdaInBit_turnaround_replies hs hv hpos (turnaroundReply_snapshot ht hw hn))⟩⟩,
        fun hpos ho => hin (bdaInBit_serving_overridden hs hpos ho),
        fun hpos ho => hin (bdaInBit_of_sent (.inr ⟨hs, .inl hpos⟩) (sentByte_serving hs ho (.inl ⟨hpos, rfl⟩))),
        fun n byte hpos ho hown =>
          hin (bdaInBit_of_sent (.inr ⟨hs, .inr ⟨n, hpos⟩⟩) (sentByte_serving hs ho (.inr ⟨n, hpos, hown⟩)))⟩

end Sys2Proof.Machine
end

section
/-!
PROOFS. A frame that breaks (O49): at a receiver, also while a reply is in progress, at a port in its turn and at an initiator.
-/
namespace Sys2Proof.Machine
open Sys2Proof.Safety

variable {s t : State} {p : PortId} {f g : FrameRec} {low : Option Time}

/-! ### A receiver goes IDLE (R20) -/

/-- R20: a receiver goes IDLE at `now`, and its snapshot area is absent. -/
def State.frameOver (s : State) (p : PortId) (now : Time) (low : Option Time) : State :=
  (s.setPort p ((s.port p).endFrame now low)).setSnapshot p none

theorem receiverBreaks_eq :
    s.receiverBreaks p f low = ((s.count p .framesBroken).dropService p f .withdrawn).frameOver p s.timeBase low := rfl

theorem frameOver_release {res : Option RcvId} {now : Time} :
    (s.release res).frameOver p now low = (s.frameOver p now low).release res := by cases res <;> rfl

theorem frameOver_claimAtPosting {r : RcvId} {e : RcvEntry} {now : Time} :
    (s.claimAtPosting r e).frameOver p now low = (s.frameOver p now low).claimAtPosting r e := by
  have hk : (s.frameOver p now low).rcv r = s.rcv r := rfl
  unfold State.claimAtPosting
  rw [hk]
  split <;> rfl

theorem frameOver_completed {r : SubId} {c : CplId} {e : CplEntry} {abort : Option (BitVec 16 × Status)} {now : Time} :
    (completed s r c e abort).frameOver p now low = completed (s.frameOver p now low) r c e abort := by
  cases abort <;> rfl

theorem frameOver_queryDropped {q : QueryDetails} {r : SubId} {c : CplId} {y : StagedXfer}
    {abort : Option (BitVec 16 × Status)} {n : Nat} {reason : CloseReason} {now : Time} :
    (queryDropped s p q r c y n reason abort).frameOver p now low =
      queryDropped (s.frameOver p now low) p q r c y n reason abort := by
  unfold queryDropped
  rw [frameOver_claimAtPosting, frameOver_completed]
  rfl

theorem endFrame_eq {x : Port} {now : Time} :
    x.endFrame now low = { idleAfter x (if low = none then some now else none) with bdaLowSince := low } := by
  cases low <;> rfl

/-- R20, R40: the state after a receiver has gone IDLE with its broken frame counted and its window at `w`. -/
def frameBrokeWith (s : State) (p : PortId) (low : Option Time) (w : Window) : State :=
  (s.setPort p
    { idleAfter (s.port p) (if low = none then some s.timeBase else none) with
      window := w, bdaLowSince := low,
      stats := { (s.port p).stats with framesBroken := (s.port p).stats.framesBroken + 1 } }).setSnapshot p none

theorem frameOver_count : (s.count p .framesBroken).frameOver p s.timeBase low = frameBrokeWith s p low (s.port p).window := by
  rw [State.frameOver, State.count_port_self, State.count, State.setPort_setPort, endFrame_eq]
  rfl

theorem frameOver_count_window {w : Window} :
    ((s.count p .framesBroken).setPort p { (s.count p .framesBroken).port p with window := w }).frameOver p s.timeBase low =
      frameBrokeWith s p low w := by
  rw [State.frameOver, State.setPort_port_self, State.setPort_setPort, State.count_port_self, State.count,
    State.setPort_setPort, endFrame_eq]
  rfl

theorem frameBroke_eq : frameBroke s p f low =
    (frameBrokeWith s p low (s.port p).window).release (f.service.bind (·.reservation)) := by
  unfold frameBroke
  generalize f.service.bind (·.reservation) = res
  cases res <;> rfl

theorem setSnapshot_setPort {x y : Port} {n : Option Snapshot} :
    ((s.setPort p x).setSnapshot p n).setPort p y = (s.setPort p y).setSnapshot p n := by
  have hcomm : ((s.setPort p x).setSnapshot p n).setPort p y = ((s.setPort p x).setPort p y).setSnapshot p n := rfl
  rw [hcomm, State.setPort_setPort]

/-- R97: a frame breaks at a receiver that replies to no query. -/
theorem receiverBreaks_without_reply (hw : isReplying (s.port p).window = false) :
    s.receiverBreaks p f low = frameBroke s p f low := by
  rw [← State.count_window (n := .framesBroken)] at hw
  rw [receiverBreaks_eq, State.dropService_of_not_replying hw, frameOver_release, frameOver_count, frameBroke_eq]

section
variable {q : QueryDetails} {reply : LatchedReply} {r : SubId} {c : CplId} {y : StagedXfer}
  {abort : Option (BitVec 16 × Status)} (hw : (s.port p).window = .replying q reply r) (hy : s.stagedOf r = some y)
  (hc : (s.sub r).completion = some c) (ha : AbortWaits s r abort)
include hw hy hc ha

/-- R97, R118: a frame breaks while its reply is in progress. -/
theorem receiverBreaks_withdrawn :
    s.receiverBreaks p f low =
      queryDropped
        ((frameBroke s p f low).setPort p { (frameBroke s p f low).port p with window := .none }) p q r c y f.accepted
        .withdrawn abort := by
  have hw' : ((s.count p .framesBroken).port p).window = .replying q reply r := by rw [State.count_window, hw]
  have hwindow : (frameBroke s p f low).setPort p { (frameBroke s p f low).port p with window := .none } =
      (frameBrokeWith s p low .none).release (f.service.bind (·.reservation)) := by
    rw [frameBroke_eq, State.release_port, State.release_setPort]
    congr 1
    rw [frameBrokeWith, setSnapshot_setPort, State.setSnapshot_port, State.setPort_port_self]
    rfl
  rw [receiverBreaks_eq, State.dropService_of_replying (s := s.count p .framesBroken) hw' hy hc ha, frameOver_queryDropped,
    frameOver_release, frameOver_count_window, hwindow]

end

/-! ### The rows -/

theorem plain_receiverBreaks (h : Plain s p) : Plain (s.receiverBreaks p f low) p := by
  have hd : Plain ((s.count p .framesBroken).dropService p f .withdrawn) p := plain_dropService (plain_count h)
  exact plain_setPort hd hd.2

/-- R20, R26: a port that receives. -/
def Receives (x : Port) (f : FrameRec) : Prop :=
  x.state = .observing ∨ x.state = .serving ∨ (x.state = .arbitrating ∧ f.turn = none)

section
variable (h : Plain s p) (hf : (s.port p).frame = some f)
include h hf

theorem frameSilence_not_counted {bda : Level} (hx : (s.port p).silenceSince = none) :
    exec (.frameSilence p bda) s = .next s := by
  refine next_inFrame h hf ?_ h
  have hnone : (s.port p).receiverSilence f = none := by
    unfold Port.receiverSilence
    split <;> simp [hx]
  simp only [hnone]

section
variable (hr : Receives (s.port p) f)
include hr

theorem frameBroken_receives (cause : BreakCause) :
    exec (.frameBroken p cause) s =
      .next (s.receiverBreaks p f (if cause = .rise then none else some s.timeBase)) := by
  refine next_inFrame h hf ?_ (plain_receiverBreaks h)
  rcases hr with hs | hs | ⟨hs, ht⟩
  · simp only [State.frameBreaks, hs]
  · simp only [State.frameBreaks, hs]
  · simp only [State.frameBreaks, hs, ht]

theorem frameSilence_receives {t : Time} {bda : Level} (hx : (s.port p).silenceSince = some t)
    (hnow : s.timeBase = t + BitVec.ofNat 32 (64 * (s.port p).config.rate.bitTime)) :
    exec (.frameSilence p bda) s =
      .next (s.receiverBreaks p f (lowFrom bda ((s.port p).bdaLowSince.getD t))) := by
  refine next_inFrame h hf ?_ (plain_receiverBreaks h)
  have hsome : (s.port p).receiverSilence f = some t := by
    rcases hr with hs | hs | ⟨hs, ht⟩
    · simp only [Port.receiverSilence, hs, hx]
    · simp only [Port.receiverSilence, hs, hx]
    · simp only [Port.receiverSilence, hs, ht, hx]
  have hdue : reach s.timeBase (t + micros (Config.silenceBits * (s.port p).config.rate.bitTime)) = s.timeBase := by
    rw [show t + micros (Config.silenceBits * (s.port p).config.rate.bitTime) = s.timeBase from hnow.symm, reach_self]
  simp only [hsome, hdue]

end

theorem headerVerdict_too_long {length : Byte} (hs : (s.port p).state = .observing ∨ (s.port p).state = .serving)
    (hpos : f.position = .lengthByte) (hl : 64 < length.toNat) :
    exec (.headerVerdict p length) s =
      .next
        (s.receiverBreaks p { f with length := some length }
          (if length.getLsbD 0 then none else some (Safety.bdaLowAt (s.port p) s.timeBase))) := by
  refine next_inFrame h hf ?_ (plain_receiverBreaks h)
  have hlow : lowFrom (levelOfBit (lastBit length)) ((s.port p).bdaLowAt s.timeBase) =
      if length.getLsbD 0 then none else some (Safety.bdaLowAt (s.port p) s.timeBase) := by
    rw [Port.bdaLowAt_eq, Port.endBit_eq]
    rw [lastBit]
    cases hb : length.getLsbD 0 <;> rfl
  have hlong : Config.maxLength < length.toNat := hl
  rcases hs with hs | hs <;> simp only [hpos, if_true, hs, if_pos hlong, hlow]

section
variable {r : SubId} (ht : f.turn = some r) (cause : BreakCause)
include ht

theorem frameBroken_arbitrating (hs : (s.port p).state = .arbitrating) :
    exec (.frameBroken p cause) s =
      .next
        ((s.setPort p
          { idleAfter (s.port p) (if cause = .rise then some s.timeBase else none) with
            bdaLowSince := if cause = .rise then none else some s.timeBase }).returnTurn r) := by
  refine next_inFrame h hf ?_ (plain_returnTurn (plain_setPort h h.2))
  simp only [State.frameBreaks, hs, ht, endFrame_eq]
  cases cause <;> rfl

theorem frameBroken_initiating (hs : (s.port p).state = .initiating) :
    exec (.frameBroken p cause) s =
      .next
        (s.attemptOver p
          { idleAfter (s.port p) (if cause = .rise then some s.timeBase else none) with
            bdaLowSince := if cause = .rise then none else some s.timeBase } r
          (some (if f.givenUp = true then .holdTimeout else .framing)) f.moved) := by
  refine next_inFrame h hf ?_ (plain_attemptOver h h.2)
  simp only [State.frameBreaks, hs, ht, endFrame_eq]
  cases cause <;> rfl

end

end

/-- Settles O49, by the port's part in the frame. -/
theorem brokenFramesAreDropped : Obligations.BrokenFramesAreDropped := by
  intro s p f h hf x receives low
  refine ⟨fun bda hx => frameSilence_not_counted h hf hx, fun hr hw => ⟨fun cause => ?_, fun t hx hnow => ⟨?_, ?_⟩⟩,
    fun q reply r c y abort hr hw hy hc ha => ?replying, fun length hs hw hpos hl => ?_,
    fun r y e c abort cause hs ht he hq hc ha => ?_, fun r cause hs ht => ?_⟩
  · rw [frameBroken_receives h hf hr, receiverBreaks_without_reply hw]
  · rw [frameSilence_receives h hf hr hx hnow, receiverBreaks_without_reply hw]
    rfl
  · rw [frameSilence_receives h hf hr hx hnow, receiverBreaks_without_reply hw]
    rfl
  case replying =>
    intro dropped
    refine ⟨fun cause => ?_, fun t hx hnow => ⟨?_, ?_⟩⟩
    · rw [frameBroken_receives h hf hr, receiverBreaks_withdrawn hw hy hc ha]
    · rw [frameSilence_receives h hf hr hx hnow, receiverBreaks_withdrawn hw hy hc ha]
      rfl
    · rw [frameSilence_receives h hf hr hx hnow, receiverBreaks_withdrawn hw hy hc ha]
      rfl
  · rw [headerVerdict_too_long h hf hs hpos hl, receiverBreaks_without_reply hw]
    rfl
  · rw [frameBroken_arbitrating h hf ht cause hs]
    exact congrArg _ (State.returnTurn_eq_turnOver he hq hc ha)
  · have hfailed : ((some (if f.givenUp = true then AttemptResult.holdTimeout else .framing)).getD .framing).failed = true := by
      cases f.givenUp <;> rfl
    rw [frameBroken_initiating h hf ht cause hs, State.attemptOver_eq, hfailed]
    cases ha : s.abortPending r <;> rfl

end Sys2Proof.Machine
end

section
/-!
PROOFS. A turn (O38): the scheduler's choice and the port's opening, the opening that forestalls it, the end of the header, and
a lost bit.
-/
namespace Sys2Proof.Machine
open Sys2Proof.Safety

variable {s t : State} {p : PortId} {f : FrameRec} {r : SubId} {x : StagedXfer} {e : ExecRec}

theorem frameAt_setPort_bit {x : Port} {d : Driver} {last : Level} {bit : Nat} :
    frameAt (s.setPort p x) p f d last bit =
      s.setPort p
        { edgeSeen x s.timeBase last bit with
          frame := some { f with bit := 0, holdSince := none }, bdaDriver := d } := by
  unfold frameAt
  rw [State.setPort_port_self, State.setPort_setPort]
  rfl

theorem plain_loseTurn {patience : Nat} (h : Plain s p) : Plain (s.loseTurn r patience) p := by
  unfold State.loseTurn
  split
  · exact h
  next y e1 _ =>
    have hexec (e2 : ExecRec) : Plain (s.setExec r y e2) p := h
    dsimp only
    split_ifs
    · exact plain_completeExec (hexec _)
    · exact plain_completeExec (hexec _)
    · exact plain_completeExec (hexec _)
    · exact hexec _

/-! ### The choice and the opening (R49, R51, R25) -/

/-- R51: the port `y` as its opening for the staged descriptor `d` of ring `r` takes effect. -/
def Port.opens (y : Port) (r : SubId) (d : Desc) (now : Time) : Port :=
  { y with
    state := .arbitrating, busView := .busy, idleSince := none, idleFull := false, bdaDriver := .drivenLow,
    silenceSince := some now, bdaLowSince := some now,
    stats := { y.stats with framesStarted := y.stats.framesStarted + 1 },
    frame := some
      (ownFrame r (buildHeader d.kind.frameKind (if d.kind = .notice then 1023 else d.dest) y.config.station)) }

theorem openFrame_eq {d : Desc} :
    s.openFrame p r d =
      (s.setPosition p (s.priorityOf r) r.val).setPort p ((s.port p).opens r d s.timeBase) := by
  unfold State.openFrame
  simp only [State.count, State.setPort_setPort, State.setPort_port_self]
  rfl

theorem priorityOf_setExec {q : SubId} : (s.setExec r x e).priorityOf q = s.priorityOf q := by
  unfold State.priorityOf State.setExec
  by_cases hq : q = r
  · subst hq
    rw [State.setSub_sub_self]
  · rw [State.setSub_sub_ne _ _ _ _ hq]

theorem beginTurn_eq {y : StagedXfer} :
    s.beginTurn p r y e =
      (withExec s r y { e with state := .inAttempt }).setPort p
        { s.port p with
          state := .arbitrating,
          frame := some
            { ownFrame r (buildHeader y.desc.kind.frameKind (if y.desc.kind = .notice then 1023 else y.desc.dest)
                (s.port p).config.station) with
              position := .opening } } := rfl

theorem beginTurn_openFrame {y : StagedXfer} :
    (s.beginTurn p r y e).openFrame p r y.desc =
      ((withExec s r y { e with state := .inAttempt }).setPosition p (s.priorityOf r) r.val).setPort p
        ((s.port p).opens r y.desc s.timeBase) := by
  have hpriority : (s.beginTurn p r y e).priorityOf r = s.priorityOf r :=
    priorityOf_setExec (e := { e with state := .inAttempt }) (x := y)
  rw [openFrame_eq, hpriority, beginTurn_eq, State.setPort_port_self]
  exact State.setPort_setPort (withExec s r y { e with state := .inAttempt } |>.setPosition p (s.priorityOf r) r.val) p _ _

section
variable (he : s.execOf r = some (x, e)) (hrun : s.engine = .running) (hs : (s.port p).state = .idle)
  (hfree : (s.port p).busView = .free) (hpick : s.pick p = some r)
include he hrun hs hfree hpick

theorem schedulerChoice_chooses (opens : Bool) :
    exec (.schedulerChoice p opens) s =
      .next (if opens then (s.beginTurn p r x e).openFrame p r x.desc else s.beginTurn p r x e) := by
  have hmay : s.engine = .running ∧ (s.port p).state = .idle ∧ (s.port p).busView = .free := ⟨hrun, hs, hfree⟩
  simp only [exec, execSchedulerChoice, if_pos hmay, hpick, he]

end

theorem schedulerChoice_refrains {opens : Bool} (hs : (s.port p).state ≠ .arbitrating)
    (hno : s.engine ≠ .running ∨ (s.port p).state ≠ .idle ∨ (s.port p).busView ≠ .free ∨ s.pick p = none) :
    exec (.schedulerChoice p opens) s = .next s := by
  simp only [exec, execSchedulerChoice]
  by_cases hmay : s.engine = .running ∧ (s.port p).state = .idle ∧ (s.port p).busView = .free
  · have hnone : s.pick p = none := by tauto
    simp only [if_pos hmay, hnone]
  · rw [if_neg hmay, if_neg (by tauto)]

section
variable (hs : (s.port p).state = .arbitrating) (hf : (s.port p).frame = some f) (ht : f.turn = some r)
include hs hf ht

section
variable (hpos : f.position = .opening)
include hpos

theorem schedulerChoice_opens (hy : s.stagedOf r = some x) (hl : s.live = true) :
    exec (.schedulerChoice p true) s = .next (s.openFrame p r x.desc) := by
  have hopening : s.live ∧ (s.port p).state = .arbitrating ∧ (s.port p).frame.map (·.position) = some .opening ∧
      True := ⟨hl, hs, by rw [hf]; exact congrArg some hpos, trivial⟩
  have hturn : (s.port p).frame.bind (·.turn) = some r := by rw [hf]; exact ht
  simp only [exec, execSchedulerChoice]
  rw [if_neg (by simp [hs]), if_pos hopening]
  simp only [hturn, hy]

/-- R51, R59: another station's opening forestalls the port's own. -/
theorem opening_forestalls (h : Plain s p) :
    exec (.opening p) s = .next ((s.setPort p (opened (s.port p) s.timeBase)).returnTurn r) := by
  refine next_event h ?_ (plain_returnTurn (plain_setPort h h.2))
  simp only [hs, hf, hpos, ht, seeOpening_eq]

end

variable (h : Plain s p) {n : Nat} (hpos : f.position = .header n)
include h hpos

/-- R26: an initiator that has won its header goes on to INITIATING. -/
theorem headerJudgement_wins (he : s.execOf r = some (x, e)) (wire : Header) :
    exec (.headerJudgement p wire) s =
      .next
        (withExec
          (frameAt (s.setPort p { s.port p with state := .initiating }) p { f with position := .channelByte }
            (if (f.rxHeader).getLsbD 0 then .released else .drivenLow)
            (if (f.rxHeader).getLsbD 0 then .recessive else .dominant))
          r x { e with replyArea := [] }) := by
  refine next_inFrame h hf ?_
    (plain_frameAt (s := s.setPort p { s.port p with state := .initiating }) (plain_setPort h h.2))
  have hexec {y : Port} : (s.setPort p y).execOf r = some (x, e) := he
  simp only [hpos, hs, ht]
  rw [State.setFrame_endBit, frameAt_setPort, frameAt_setPort, State.setPort_port_self]
  simp only [hexec]
  rfl

/-- R10, R52: a lost bit. -/
theorem arbitrationLoss_loses {bit : Fin 24} (hb : (f.rxHeader).getMsbD bit.val = true) :
    exec (.arbitrationLoss p bit) s =
      .next
        ((frameAt
          (s.setPort p
            { s.port p with
              bckDriver := .released,
              stats := { (s.port p).stats with arbitrationLost := (s.port p).stats.arbitrationLost + 1 } })
          p
          { f with
            role := .observer, position := .header (bit.val + 1), turn := none,
            rxHeader := f.rxHeader &&& ~~~(BitVec.twoPow 24 (23 - bit.val)) } .released .dominant (bit.val % 8)).loseTurn
          r (s.port p).config.patience) := by
  have hlost : (s.port p).lostTurn f bit = some r := by
    simp only [Port.lostTurn, hs, hpos, headerBit, hb, ht, if_true]
  refine next_inFrame h hf ?_ ?_
  · simp only [hlost]
    rw [State.setFrame_eq, State.count, frameAt_setPort_bit, frameAt_setPort_bit, State.setPort_port_self,
      State.setPort_port_self, State.setPort_setPort]
    rfl
  · exact plain_loseTurn
      (plain_frameAt (s := s.setPort p
        { s.port p with
          bckDriver := .released,
          stats := { (s.port p).stats with arbitrationLost := (s.port p).stats.arbitrationLost + 1 } })
        (plain_setPort h h.2))

end

/-! ### The fate of a descriptor whose turn is lost (R52) -/

section
variable (he : s.execOf r = some (x, e)) (hloss : e.losses ≤ 255)

/-- R52: the execution record after a loss. -/
def ExecRec.lost (e : ExecRec) : ExecRec := { e with losses := min 255 (e.losses + 1), state := .eligible }

include he hloss

theorem loseTurn_eq {patience : Nat} :
    s.loseTurn r patience =
      if s.abortPending r = true then (withExec s r x e.lost).completeExec r .aborted e.lastBytes
      else if e.deadlinePassed = true then (withExec s r x e.lost).completeExec r .expired e.lastBytes
      else if e.lost.losses = patience then (withExec s r x e.lost).completeExec r .arbExhausted e.lastBytes
      else withExec s r x e.lost := by
  simp only [State.loseTurn, he, saturate_eq_min hloss]
  rfl

variable {c : CplId} {abort : Option (BitVec 16 × Status)} (hq : (s.sub r).port = some p)
  (hc : (s.sub r).completion = some c) (ha : AbortWaits s r abort)

omit hloss in
include hq hc ha in
/-- R62: none of the statuses of a lost turn hands an outcome to the health table. -/
theorem completeExec_lost {status : Status} (hst : status = .aborted ∨ status = .expired ∨ status = .arbExhausted) (n : Nat) :
    (withExec s r x e.lost).completeExec r status n =
      completed (withExec s r x e.lost) r c (execEntry (withExec s r x e.lost) r x e.lost status n) abort := by
  have hsilent : (withExec s r x e.lost).tellHealth p x.desc status = withExec s r x e.lost := by
    rcases hst with rfl | rfl | rfl <;> exact ite_self _
  rw [State.completeExec_withExec he hq hc ha, hsilent]

section
variable {patience : Nat}
include hq hc ha

theorem loseTurn_aborted (hab : s.abortPending r = true) :
    s.loseTurn r patience =
      completed (withExec s r x e.lost) r c (execEntry (withExec s r x e.lost) r x e.lost .aborted e.lastBytes) abort := by
  rw [loseTurn_eq he hloss, if_pos hab, completeExec_lost he hq hc ha (by simp)]

theorem loseTurn_expired (hab : s.abortPending r = false) (hd : e.deadlinePassed = true) :
    s.loseTurn r patience =
      completed (withExec s r x e.lost) r c (execEntry (withExec s r x e.lost) r x e.lost .expired e.lastBytes) abort := by
  rw [loseTurn_eq he hloss, if_neg (by simp [hab]), if_pos hd, completeExec_lost he hq hc ha (by simp)]

theorem loseTurn_exhausted (hab : s.abortPending r = false) (hd : e.deadlinePassed = false)
    (hl : e.lost.losses = patience) :
    s.loseTurn r patience =
      completed (withExec s r x e.lost) r c (execEntry (withExec s r x e.lost) r x e.lost .arbExhausted e.lastBytes)
        abort := by
  rw [loseTurn_eq he hloss, if_neg (by simp [hab]), if_neg (by simp [hd]), if_pos hl,
    completeExec_lost he hq hc ha (by simp)]

end

theorem loseTurn_again {patience : Nat} (hab : s.abortPending r = false) (hd : e.deadlinePassed = false)
    (hl : e.lost.losses ≠ patience) : s.loseTurn r patience = withExec s r x e.lost := by
  rw [loseTurn_eq he hloss, if_neg (by simp [hab]), if_neg (by simp [hd]), if_neg hl]

end

/-- Settles O38: the choice, the opening that forestalls it, and the two ends of the header. -/
theorem turnRunsThroughHeader : Obligations.TurnRunsThroughHeader := by
  intro s p r x e he y header opens
  obtain ⟨hy, -, ho, -⟩ := State.staged_of_execOf he
  refine ⟨fun hrun hs hfree hpick => ⟨?_, ?_⟩, fun o hs hno => schedulerChoice_refrains hs hno,
    fun f hs hf ht hpos => ⟨fun hl => ?_, fun c abort h hq hc ha => ?_⟩, fun f n h hs hf ht hpos =>
    ⟨headerJudgement_wins hs hf ht h hpos he, fun bit c abort hb hq hc ha hloss => ?loss⟩⟩
  · rw [schedulerChoice_chooses he hrun hs hfree hpick, if_pos rfl, beginTurn_openFrame]
    rfl
  · exact schedulerChoice_chooses he hrun hs hfree hpick false
  · rw [schedulerChoice_opens hs hf ht hpos hy hl, openFrame_eq]
    rfl
  · rw [opening_forestalls hs hf ht hpos h]
    exact congrArg _ (State.returnTurn_eq_turnOver (s := s.setPort p (opened y s.timeBase)) he hq hc ha)
  case loss =>
    intro e1 t completes
    have hlose := arbitrationLoss_loses hs hf ht h hpos hb
    refine ⟨fun hab => hlose.trans (congrArg _ ?_), fun hab hd => hlose.trans (congrArg _ ?_),
      fun hab hd hl => hlose.trans (congrArg _ ?_), fun hab hd hl => hlose.trans (congrArg _ ?_)⟩
    · exact loseTurn_aborted (s := frameAt (s.setPort p _) p _ _ _ _) he hloss hq hc ha hab
    · exact loseTurn_expired (s := frameAt (s.setPort p _) p _ _ _ _) he hloss hq hc ha hab hd
    · exact loseTurn_exhausted (s := frameAt (s.setPort p _) p _ _ _ _) he hloss hq hc ha hab hd hl
    · exact loseTurn_again (s := frameAt (s.setPort p _) p _ _ _ _) he hloss hab hd hl

end Sys2Proof.Machine
end

section
/-!
PROOFS. What the waiting descriptors of a port do as it goes down and as its recovery succeeds (O31). Both are one pass over the
submission rings, in which a ring's part depends on that ring alone: the pass is described once.
-/
namespace Sys2Proof.Machine
open Sys2Proof.Safety

variable {s t : State} {p : PortId} {r : SubId} {x : StagedXfer} {e : ExecRec}

/-! ### One pass over the submission rings -/

/-- R134: a completion that a ring gives joins the queue of the ring's completion ring. -/
def State.appended (s : State) (k : Option CplId) (e : Option CplEntry) : State :=
  match k, e with
  | some c, some e => s.setCpl c { s.cpl c with queue := (s.cpl c).queue ++ [e] }
  | _, _ => s

/-- A state that differs from another in the submission and completion rings alone. -/
def SameButRings (s t : State) : Prop := t = { s with subs := t.subs, cpls := t.cpls }

theorem sameButRings_appended (s : State) (r : SubId) (k : SubRing) (c : Option CplId) (e : Option CplEntry) :
    SameButRings s ((s.setSub r k).appended c e) := by
  unfold State.appended
  split <;> rfl

theorem SameButRings.trans {u : State} (h : SameButRings s t) (h' : SameButRings t u) : SameButRings s u := by
  unfold SameButRings at *
  rw [h', h]

theorem appended_sub (s : State) (c : Option CplId) (e : Option CplEntry) (q : SubId) :
    (s.appended c e).sub q = s.sub q := by
  unfold State.appended
  split <;> rfl

theorem appended_cpl (s : State) (k : Option CplId) (e : Option CplEntry) (c : CplId) :
    (s.appended k e).cpl c =
      { s.cpl c with queue := (s.cpl c).queue ++ (if k = some c then e else none).toList } := by
  unfold State.appended
  split
  next c' e' =>
    by_cases hc : c' = c
    · subst hc
      simp
    · rw [State.setCpl_cpl_ne _ _ _ _ (Ne.symm hc), if_neg (by simpa using hc)]
      simp
  next hnone =>
    have hnil : (if k = some c then e else none) = none := by
      split
      next hk => exact Option.eq_none_iff_forall_ne_some.2 fun e' he => hnone _ _ hk he
      next => rfl
    rw [hnil]
    simp

/-- What a pass does at each ring: the ring's context after it, and the completion it gives, both by what the ring itself and
the rest of the device, but not the other rings, hold. -/
structure RingPass where
  step : State → SubId → State
  ring : State → SubId → SubRing
  entry : State → SubId → Option CplEntry
  /-- Where the step is as described. -/
  good : State → SubId → Prop
  step_eq : ∀ s r, good s r → step s r = (s.setSub r (ring s r)).appended (s.sub r).completion (entry s r)
  ring_local : ∀ s t q, SameButRings s t → t.sub q = s.sub q → ring t q = ring s q
  entry_local : ∀ s t q, SameButRings s t → t.sub q = s.sub q → entry t q = entry s q
  good_local : ∀ s t q, SameButRings s t → t.sub q = s.sub q → good s q → good t q

/-- A pass over rings of which none comes twice. -/
theorem RingPass.foldl_spec (P : RingPass) (l : List SubId) (hl : l.Nodup) (hgood : ∀ r ∈ l, P.good s r) :
    SameButRings s (l.foldl P.step s) ∧
    (∀ r, (l.foldl P.step s).sub r = if r ∈ l then P.ring s r else s.sub r) ∧
    ∀ c, (l.foldl P.step s).cpl c =
      { s.cpl c with
        queue := (s.cpl c).queue ++ l.filterMap fun r => if (s.sub r).completion = some c then P.entry s r else none } := by
  induction l generalizing s with
  | nil => exact ⟨rfl, fun r => by simp, fun c => by simp⟩
  | cons a l ih =>
    obtain ⟨ha, hl⟩ := List.nodup_cons.1 hl
    obtain ⟨hgooda, hgood⟩ := List.forall_mem_cons.1 hgood
    have hstep := P.step_eq s a hgooda
    have hsame : SameButRings s (P.step s a) := by rw [hstep]; exact sameButRings_appended _ _ _ _ _
    have hsub {q : SubId} (hq : q ∈ l) : (P.step s a).sub q = s.sub q := by
      rw [hstep, appended_sub, State.setSub_sub_ne]
      rintro rfl
      exact ha hq
    obtain ⟨hsame', hsub', hcpl'⟩ := ih hl fun q hq => P.good_local s _ q hsame (hsub hq) (hgood q hq)
    refine ⟨hsame.trans hsame', fun q => ?_, fun c => ?_⟩
    · rw [List.foldl_cons, hsub']
      by_cases hq : q ∈ l
      · rw [if_pos hq, if_pos (List.mem_cons_of_mem _ hq), P.ring_local s _ q hsame (hsub hq)]
      · rw [if_neg hq, hstep, appended_sub, State.setSub_sub_eq]
        by_cases hqa : q = a
        · subst hqa
          simp
        · simp [hqa, hq]
    · have hrest : (l.filterMap fun r => if ((P.step s a).sub r).completion = some c then P.entry (P.step s a) r else none) =
          l.filterMap fun r => if (s.sub r).completion = some c then P.entry s r else none :=
        List.filterMap_congr fun q hq => by rw [hsub hq, P.entry_local s _ q hsame (hsub hq)]
      rw [List.foldl_cons, hcpl', hrest, hstep, appended_cpl, List.filterMap_cons]
      cases hentry : (if (s.sub a).completion = some c then P.entry s a else none) <;> simp

/-! ### What depends on one ring alone -/

section
variable {q : SubId} (hsub : t.sub q = s.sub q)
include hsub

theorem execOf_of_sub : t.execOf q = s.execOf q := by rw [State.execOf_eq_record, State.execOf_eq_record, hsub]

theorem inState_of_sub (state : ExecState) : t.inState p q state = s.inState p q state := by
  unfold State.inState
  rw [hsub, execOf_of_sub hsub]

theorem execEntry_of_sub {status : Status} {n : Nat} : execEntry t q x e status n = execEntry s q x e status n := by
  unfold execEntry plainEntry
  rw [hsub]

omit hsub in
theorem noAbortWaits_of_same (hsame : SameButRings s t) (h : NoAbortWaits s q) : NoAbortWaits t q := by
  rw [hsame]
  exact h

omit hsub in
theorem healthEntry_of_same (hsame : SameButRings s t) (st : Station) : t.healthEntry p st = s.healthEntry p st := by
  rw [hsame]
  rfl

end

theorem execOf_of_inState {state : ExecState} (h : s.inState p r state = true) :
    (s.sub r).port = some p ∧ ∃ x e, s.execOf r = some (x, e) ∧ e.state = state := by
  simp only [State.inState, Bool.and_eq_true, beq_iff_eq, Option.any_eq_true] at h
  obtain ⟨hp, ⟨x, e⟩, he, hstate⟩ := h
  exact ⟨hp, x, e, he, hstate⟩

/-! ### A ring that gives its completion (R134) -/

theorem setSub_self (s : State) (r : SubId) : s.setSub r (s.sub r) = s := by
  simp [State.setSub, State.sub]

/-- R134: the ring of a completion that is given: it becomes COMPLETING, where it names a completion ring. -/
def SubRing.gives (k : SubRing) : SubRing := if k.completion ≠ none then completing k else k

theorem completeExec_gives {status : Status} (hp : (s.sub r).port = some p) (he : s.execOf r = some (x, e))
    (ha : NoAbortWaits s r) (hst : status = .portDown ∨ status = .barred) (n : Nat) :
    s.completeExec r status n =
      (s.setSub r (s.sub r).gives).appended (s.sub r).completion (some (execEntry s r x e status n)) := by
  obtain ⟨-, -, ho, -⟩ := State.staged_of_execOf he
  have hsilent : s.tellHealth p x.desc status = s := State.tellHealth_silent (by tauto)
  simp only [State.completeExec, he, hp, hsilent]
  rw [State.complete_of_noAbortWaits ha]
  cases hc : (s.sub r).completion with
  | none =>
    rw [SubRing.gives, hc, if_neg (by simp), setSub_self]
    simp only [State.handOver, hc]
    rfl
  | some c =>
    rw [SubRing.gives, hc, if_pos (by simp), State.handOver_eq hc (.inr ho)]
    rfl

/-! ### A port that goes down (R47) -/

/-- R47: a descriptor of the port that waits for its turn. -/
abbrev State.waits (s : State) (p : PortId) (r : SubId) : Prop :=
  s.inState p r .eligible = true ∨ s.inState p r .held = true

theorem waits_of_sub {q : SubId} (hsub : t.sub q = s.sub q) : t.waits p q ↔ s.waits p q := by
  unfold State.waits
  rw [inState_of_sub hsub, inState_of_sub hsub]

theorem execOf_of_waits (h : s.waits p r) : (s.sub r).port = some p ∧ ∃ x e, s.execOf r = some (x, e) := by
  rcases h with h | h
  all_goals
    obtain ⟨hp, x, e, he, -⟩ := execOf_of_inState h
    exact ⟨hp, x, e, he⟩

/-- R47: the completion that a waiting descriptor gives. -/
def downEntry (p : PortId) (s : State) (r : SubId) : Option CplEntry :=
  if s.waits p r then (s.execOf r).map fun xe => execEntry s r xe.1 xe.2 .portDown xe.2.lastBytes else none

/-- R47: one ring's part as the port goes down. -/
def downStep (p : PortId) (s : State) (r : SubId) : State :=
  if s.inState p r .eligible || s.inState p r .held then
    match s.execOf r with
    | some (_, e) => s.completeExec r .portDown e.lastBytes
    | none => s
  else s

theorem portDown_eq : s.portDown p = allSubs.foldl (downStep p) s := rfl

theorem downStep_eq (hgood : s.waits p r → NoAbortWaits s r) :
    downStep p s r =
      (s.setSub r (if s.waits p r then (s.sub r).gives else s.sub r)).appended (s.sub r).completion (downEntry p s r) := by
  by_cases hw : s.waits p r
  · obtain ⟨hp, x, e, he⟩ := execOf_of_waits hw
    rw [downStep, if_pos (by simpa using hw), if_pos hw, downEntry, if_pos hw, he]
    exact completeExec_gives hp he (hgood hw) (.inl rfl) _
  · rw [downStep, if_neg (by simpa using hw), if_neg hw, downEntry, if_neg hw, setSub_self]
    cases (s.sub r).completion <;> rfl

/-- R47: the pass over the rings as the port goes down. -/
def downPass (p : PortId) : RingPass where
  step := downStep p
  ring s r := if s.waits p r then (s.sub r).gives else s.sub r
  entry := downEntry p
  good s r := s.waits p r → NoAbortWaits s r
  step_eq _ _ := downStep_eq
  ring_local s t q _ hsub := by simp only [waits_of_sub hsub, hsub]
  entry_local s t q _ hsub := by simp only [downEntry, waits_of_sub hsub, execOf_of_sub hsub, execEntry_of_sub hsub]
  good_local s t q hsame hsub h hw := noAbortWaits_of_same hsame (h ((waits_of_sub hsub).1 hw))

/-- R47: every waiting descriptor of a port that goes down completes PORT_DOWN, and nothing else changes. -/
theorem portDown_spec (h : ∀ r, s.waits p r → NoAbortWaits s r) :
    SameButRings s (s.portDown p) ∧
    (∀ r, (s.portDown p).sub r = if s.waits p r then (s.sub r).gives else s.sub r) ∧
    ∀ c, (s.portDown p).cpl c =
      { s.cpl c with queue := (s.cpl c).queue ++ handedInOrder s c (downEntry p s) } := by
  obtain ⟨hsame, hsub, hcpl⟩ := (downPass p).foldl_spec (s := s) allSubs (List.nodup_finRange 32) fun r _ => h r
  exact ⟨hsame, fun r => (hsub r).trans (if_pos (List.mem_finRange r)), hcpl⟩

/-! ### A recovery that succeeds (R46) -/

/-- R45, R46: the descriptor completes BARRED. -/
abbrev State.bars (s : State) (p : PortId) (x : StagedXfer) : Prop :=
  x.desc.kind ≠ .notice ∧ (s.healthEntry p x.desc.dest).map HealthEntry.state = some .barred ∧ x.desc.probe = false

/-- R45: the effective limit of a descriptor that is not barred. -/
def State.limitFor (s : State) (p : PortId) (x : StagedXfer) : Nat :=
  if x.desc.kind ≠ .notice ∧ (s.healthEntry p x.desc.dest).map HealthEntry.state = some .suspect then 1
  else x.desc.attemptLimit

/-- R45: the ring of a descriptor that has become ELIGIBLE. -/
def SubRing.eligibleWith (k : SubRing) (x : StagedXfer) (e : ExecRec) (limit : Nat) : SubRing :=
  { k with staged := some (.xfer { x with exec := some { e with state := .eligible, limit } }) }

theorem healthCheck_bars (hp : (s.sub r).port = some p) (he : s.execOf r = some (x, e)) (ha : NoAbortWaits s r)
    (hb : s.bars p x) :
    s.healthCheck r p x e =
      (s.setSub r (s.sub r).gives).appended (s.sub r).completion (some (execEntry s r x e .barred e.lastBytes)) := by
  obtain ⟨hn, hentry, hprobe⟩ := hb
  rw [healthCheck_barred _ hentry hn rfl hprobe]
  exact completeExec_gives hp he ha (.inr rfl) _

theorem healthCheck_eligible (hb : ¬ s.bars p x) :
    s.healthCheck r p x e = s.setSub r ((s.sub r).eligibleWith x e (s.limitFor p x)) := by
  by_cases hsuspect : x.desc.kind ≠ .notice ∧ (s.healthEntry p x.desc.dest).map HealthEntry.state = some .suspect
  · rw [healthCheck_suspect _ hsuspect.2 hsuspect.1 rfl, State.limitFor, if_pos hsuspect]
    rfl
  · rw [healthCheck_own _ rfl, State.limitFor, if_neg hsuspect]
    · rfl
    · rcases hentry : (s.healthEntry p x.desc.dest).map HealthEntry.state with _ | _ | _ | _ <;>
        cases hprobe : x.desc.probe <;> simp_all [State.bars]

/-- R46: what a HELD descriptor's ring becomes. -/
def checkedRing (p : PortId) (s : State) (r : SubId) (x : StagedXfer) (e : ExecRec) : SubRing :=
  if s.bars p x then (s.sub r).gives else (s.sub r).eligibleWith x e (s.limitFor p x)

/-- R46: one ring's context after the check. -/
def recheckedRing (p : PortId) (s : State) (r : SubId) : SubRing :=
  if s.inState p r .held = true then ((s.execOf r).map fun xe => checkedRing p s r xe.1 xe.2).getD (s.sub r) else s.sub r

/-- R46: the completion that a descriptor gives at the check. -/
def recheckedEntry (p : PortId) (s : State) (r : SubId) : Option CplEntry :=
  (s.execOf r).bind fun xe =>
    if s.inState p r .held = true ∧ s.bars p xe.1 then some (execEntry s r xe.1 xe.2 .barred xe.2.lastBytes) else none

def recheckStep (p : PortId) (s : State) (r : SubId) : State :=
  if s.inState p r .held then
    match s.execOf r with
    | some (x, e) => s.healthCheck r p x e
    | none => s
  else s

theorem recheckHeld_eq : s.recheckHeld p = allSubs.foldl (recheckStep p) s := rfl

theorem appended_none (s : State) (k : Option CplId) : s.appended k none = s := by cases k <;> rfl

theorem recheckStep_eq (hgood : s.inState p r .held = true → NoAbortWaits s r) :
    recheckStep p s r =
      (s.setSub r (recheckedRing p s r)).appended (s.sub r).completion (recheckedEntry p s r) := by
  by_cases hheld : s.inState p r .held = true
  · obtain ⟨hp, x, e, he, -⟩ := execOf_of_inState hheld
    have hring : recheckedRing p s r = checkedRing p s r x e := by
      rw [recheckedRing, if_pos hheld, he]
      rfl
    have hstep : recheckStep p s r = s.healthCheck r p x e := by
      rw [recheckStep, if_pos hheld, he]
    rw [hring, hstep, recheckedEntry, he, Option.bind_some, checkedRing]
    by_cases hb : s.bars p x
    · rw [if_pos hb, if_pos ⟨hheld, hb⟩, healthCheck_bars hp he (hgood hheld) hb]
    · rw [if_neg hb, if_neg fun h => hb h.2, healthCheck_eligible hb, appended_none]
  · have hentry : recheckedEntry p s r = none := by
      cases he : s.execOf r with
      | none => simp [recheckedEntry, he]
      | some xe => simp [recheckedEntry, he, hheld]
    rw [recheckStep, if_neg hheld, recheckedRing, if_neg hheld, setSub_self, hentry, appended_none]

/-- R46: the pass over the rings as recovery succeeds. -/
def recheckPass (p : PortId) : RingPass where
  step := recheckStep p
  ring := recheckedRing p
  entry := recheckedEntry p
  good s r := s.inState p r .held = true → NoAbortWaits s r
  step_eq _ _ := recheckStep_eq
  ring_local s t q hsame hsub := by
    simp only [recheckedRing, checkedRing, State.bars, State.limitFor, inState_of_sub hsub, execOf_of_sub hsub, hsub,
      healthEntry_of_same hsame]
  entry_local s t q hsame hsub := by
    simp only [recheckedEntry, State.bars, inState_of_sub hsub, execOf_of_sub hsub, execEntry_of_sub hsub,
      healthEntry_of_same hsame]
  good_local s t q hsame hsub h hheld := noAbortWaits_of_same hsame (h (by rwa [inState_of_sub hsub] at hheld))

/-- R46: every HELD descriptor is checked, and nothing else changes. -/
theorem recheckHeld_spec (h : ∀ r, s.inState p r .held = true → NoAbortWaits s r) :
    SameButRings s (s.recheckHeld p) ∧
    (∀ r, (s.recheckHeld p).sub r = recheckedRing p s r) ∧
    ∀ c, (s.recheckHeld p).cpl c =
      { s.cpl c with queue := (s.cpl c).queue ++ handedInOrder s c (recheckedEntry p s) } := by
  obtain ⟨hsame, hsub, hcpl⟩ := (recheckPass p).foldl_spec (s := s) allSubs (List.nodup_finRange 32) fun r _ => h r
  exact ⟨hsame, fun r => (hsub r).trans (if_pos (List.mem_finRange r)), hcpl⟩

section
variable (hheld : s.inState p r .held = true) (he : s.execOf r = some (x, e))
include hheld he

theorem recheckedRing_of_held : recheckedRing p s r = checkedRing p s r x e := by
  rw [recheckedRing, if_pos hheld, he]
  rfl

theorem recheckedRing_eligible (hb : ¬ s.bars p x) :
    recheckedRing p s r = (s.sub r).eligibleWith x e (s.limitFor p x) := by
  rw [recheckedRing_of_held hheld he, checkedRing, if_neg hb]

theorem recheckedRing_bars (hb : s.bars p x) (hc : (s.sub r).completion ≠ none) :
    recheckedRing p s r = completing (s.sub r) := by
  rw [recheckedRing_of_held hheld he, checkedRing, if_pos hb, SubRing.gives, if_pos hc]

end

theorem recheckedRing_of_not_held (hheld : s.inState p r .held = false) : recheckedRing p s r = s.sub r :=
  if_neg (by simp [hheld])

/-- R46: no descriptor stays HELD. -/
theorem recheckHeld_not_held (hsub : t.sub r = recheckedRing p s r)
    (hnamed : (s.sub r).occupancy ≠ .empty → (s.sub r).completion ≠ none) : t.inState p r .held = false := by
  cases hheld : s.inState p r .held with
  | false => rw [inState_of_sub (hsub.trans (recheckedRing_of_not_held hheld)), hheld]
  | true =>
    obtain ⟨-, x, e, he, -⟩ := execOf_of_inState hheld
    obtain ⟨-, -, ho, -⟩ := State.staged_of_execOf he
    by_cases hb : s.bars p x
    · have hrecord : t.execOf r = none := by
        rw [State.execOf_eq_record, hsub, recheckedRing_bars hheld he hb (hnamed (by simp [ho]))]
        rfl
      simp [State.inState, hrecord]
    · have hrecord : t.execOf r =
          some ({ x with exec := some { e with state := .eligible, limit := s.limitFor p x } },
            { e with state := .eligible, limit := s.limitFor p x }) := by
        rw [State.execOf_eq_record, hsub, recheckedRing_eligible hheld he hb, SubRing.eligibleWith, SubRing.record]
        simp [ho]
      simp [State.inState, hrecord]

/-! ### Recovery at a port (R38, R46) -/

theorem plain_healthCheck (h : Plain s p) {q : PortId} : Plain (s.healthCheck r q x e) p := by
  by_cases hb : s.bars q x
  · obtain ⟨hn, hentry, hprobe⟩ := hb
    rw [healthCheck_barred _ hentry hn rfl hprobe]
    exact plain_completeExec h
  · rw [healthCheck_eligible hb]
    exact h

theorem plain_foldl {step : State → SubId → State} (hstep : ∀ s r, Plain s p → Plain (step s r) p) (l : List SubId)
    (h : Plain s p) : Plain (l.foldl step s) p := by
  induction l generalizing s with
  | nil => exact h
  | cons r l ih => exact ih (hstep s r h)

theorem plain_recheckHeld {q : PortId} (h : Plain s p) : Plain (s.recheckHeld q) p := by
  rw [recheckHeld_eq]
  refine plain_foldl (fun u r hu => ?_) _ h
  unfold recheckStep
  split
  · split
    · exact plain_healthCheck hu
    · exact hu
  · exact hu

section
variable {v : Recovery} (h : Plain s p) (hs : (s.port p).state = .recovering) (hv : (s.port p).recovery = some v)
  (hgap : v.phase = .gap)
include h hs hv hgap

theorem opening_recovers (hplain : Plain (s.recovered p (opened (s.port p) s.timeBase)) p) :
    exec (.opening p) s = .next (s.recovered p (opened (s.port p) s.timeBase)) := by
  refine next_event h ?_ hplain
  have hphase : (s.port p).recovery.map Recovery.phase = some .gap := by rw [hv, ← hgap]; rfl
  simp only [hs, if_pos hphase, seeOpening_eq]

theorem idleGap_recovers {t : Time} (ht : (s.port p).idleSince = some t)
    (hnow : s.timeBase = t + BitVec.ofNat 32 (8 * (s.port p).config.rate.bitTime))
    (hplain : Plain (s.recovered p { idleAfter (s.port p) (some t) with busView := .free, idleFull := true }) p) :
    exec (.idleGap p) s =
      .next (s.recovered p { idleAfter (s.port p) (some t) with busView := .free, idleFull := true }) := by
  refine next_event h ?_ hplain
  have hphase : (s.port p).recovery.map Recovery.phase = some .gap := by rw [hv, ← hgap]; rfl
  have hdue : reach s.timeBase (t + micros (Config.idleGapBits * (s.port p).config.rate.bitTime)) = s.timeBase := by
    rw [show t + micros (Config.idleGapBits * (s.port p).config.rate.bitTime) = s.timeBase from hnow.symm, reach_self]
  simp only [ht, hs, if_pos hphase, hdue]
  rfl

end

theorem recovered_without_command {x : Port} (ha : s.admin ≠ .recovering p) :
    s.recovered p x = (s.setPort p x).recheckHeld p := by
  rw [State.recovered, State.endRecover, if_neg (by exact ha)]

/-- Settles O31: the two passes over the rings, and the two rows with which recovery succeeds. -/
theorem waitingDescriptorsFollowPort : Obligations.WaitingDescriptorsFollowPort := by
  refine ⟨fun s p h => ?down, fun s p h hnamed => ?checked, fun s p v h hs hv hgap ha => ⟨?opening, fun t ht hnow => ?gap⟩⟩
  case down =>
    obtain ⟨hsame, hsub, hcpl⟩ := portDown_spec h
    refine ⟨hsame, fun r => (hsub r).trans ?_, hcpl⟩
    by_cases hw : s.waits p r
    · rw [if_pos hw, SubRing.gives]
      simp only [hw, true_and]
    · rw [if_neg hw, if_neg fun h => hw h.1]
  case checked =>
    obtain ⟨hsame, hsub, hcpl⟩ := recheckHeld_spec h
    refine ⟨hsame, fun r => recheckHeld_not_held (hsub r) (hnamed r),
      fun r hheld => (hsub r).trans (recheckedRing_of_not_held hheld), fun r x e hheld he => ?_, fun c => (hcpl c).trans ?_⟩
    · have hc : (s.sub r).completion ≠ none := hnamed r (by
        obtain ⟨-, -, ho, -⟩ := State.staged_of_execOf he
        simp [ho])
      refine ⟨fun hown => ?_, fun hn hsuspect => ?_, fun hn hbarred hprobe => ?_⟩
      · rw [hsub, recheckedRing_eligible hheld he (by simp only [State.bars]; rcases hown with h | h | h | h <;> simp [h]),
          State.limitFor, if_neg (by rcases hown with h | h | h | h <;> simp [h])]
        rfl
      · rw [hsub, recheckedRing_eligible hheld he (by simp [State.bars, hsuspect]), State.limitFor, if_pos ⟨hn, hsuspect⟩]
        rfl
      · exact (hsub r).trans (recheckedRing_bars hheld he ⟨hn, hbarred, hprobe⟩ hc)
    · refine congrArg
        (fun entry => ({ s.cpl c with queue := (s.cpl c).queue ++ handedInOrder s c entry } : CplRing)) (funext fun r => ?_)
      unfold recheckedEntry
      cases he : s.execOf r <;> rfl
  case opening =>
    rw [opening_recovers h hs hv hgap, recovered_without_command ha]
    rw [recovered_without_command ha]
    exact plain_recheckHeld (plain_setPort h h.2)
  case gap =>
    rw [idleGap_recovers h hs hv hgap ht hnow, recovered_without_command ha]
    rw [recovered_without_command ha]
    exact plain_recheckHeld (plain_setPort h h.2)

end Sys2Proof.Machine
end

section
/-!
PROOFS. The idle gap and the lines outside a frame, and the recovery procedure, phase by phase (first part of O50).
-/
namespace Sys2Proof.Machine
open Sys2Proof.Safety

variable {s t : State} {p : PortId} {x : Port} {now : Time} {v : Recovery}

/-! ### The idle gap (R7) -/

section
variable (h : Plain s p)
include h

theorem idleGap_nothing (hs : (s.port p).state = .idle) (hx : (s.port p).idleSince = none ∨ (s.port p).idleFull = true) :
    exec (.idleGap p) s = .next s := by
  refine next_event h ?_ h
  rcases hx with hx | hx
  · simp only [hx]
  · cases hsince : (s.port p).idleSince <;> simp only [hs, hx, if_true]

theorem idleGap_frees {t : Time} (hs : (s.port p).state = .idle) (ht : (s.port p).idleSince = some t)
    (hfull : (s.port p).idleFull = false) (hnow : s.timeBase = t + BitVec.ofNat 32 (8 * (s.port p).config.rate.bitTime)) :
    exec (.idleGap p) s =
      .next
        (s.setPort p { s.port p with busView := .free, idleFull := true, bckLowSince := none, bdaLowSince := none }) := by
  refine next_event h ?_ (plain_setPort h h.2)
  have hdue : reach s.timeBase (t + micros (Config.idleGapBits * (s.port p).config.rate.bitTime)) = s.timeBase := by
    rw [show t + micros (Config.idleGapBits * (s.port p).config.rate.bitTime) = s.timeBase from hnow.symm, reach_self]
  simp only [ht, hs, hfull, hdue, Bool.false_eq_true, if_false]

/-! ### Lines outside a frame (R7, R21) -/

theorem lineGoesLow_falls {line : Line}
    (hs : (s.port p).state = .idle ∨ (s.port p).state = .recovering ∨ (s.port p).state = .faulted) :
    exec (.lineGoesLow p line .falls) s = .next (s.setPort p ((s.port p).lineFalls line s.timeBase)) := by
  have hstop : ((s.port p).lineFalls line s.timeBase).stopPending = false := by cases line <;> exact h.2
  refine next_event h ?_ (plain_setPort h hstop)
  rcases hs with hs | hs | hs <;> cases line <;> simp only [hs]

theorem bckRises
    (hs : (s.port p).state = .idle ∨ (s.port p).state = .recovering ∨ (s.port p).state = .faulted)
    (hx : ((s.port p).lineRises .bck s.timeBase).bckRisesInRecovery s.timeBase = x) (hstop : x.stopPending = false) :
    exec (.lineGoesLow p .bck .rises) s = .next (s.setPort p x) := by
  refine next_event h ?_ (plain_setPort h hstop)
  rcases hs with hs | hs | hs <;> simp only [hs, hx]

theorem bdaRises
    (hs : (s.port p).state = .idle ∨ (s.port p).state = .recovering ∨ (s.port p).state = .faulted)
    (hx : (s.port p).lineRises .bda s.timeBase = x) (hstop : x.stopPending = false) :
    exec (.lineGoesLow p .bda .rises) s = .next (s.setPort p x) := by
  refine next_event h ?_ (plain_setPort h hstop)
  rcases hs with hs | hs | hs <;> simp only [hs, hx]

end

/-- R7: a port that counts the gap, and whose idle time is held at 0. -/
theorem countsGap_iff : x.countsGap = true ↔
    x.state = .idle ∨ (x.state = .recovering ∧ x.recovery.map (·.phase) = some .gap) := by
  simp [Port.countsGap]

theorem lineRises_bck_counting (hc : x.countsGap = true) (hx : x.idleSince = none) :
    x.lineRises .bck now =
      { x with
        bckLowSince := none, idleSince := if x.bdaLowSince = none then some now else none,
        idleFull := if x.bdaLowSince = none then false else x.idleFull } := by
  cases hlow : x.bdaLowSince <;> simp [Port.lineRises, hc, hx, hlow]

theorem lineRises_bda_counting (hc : x.countsGap = true) (hx : x.idleSince = none) :
    x.lineRises .bda now =
      { x with
        bdaLowSince := none, idleSince := if x.bckLowSince = none then some now else none,
        idleFull := if x.bckLowSince = none then false else x.idleFull } := by
  cases hlow : x.bckLowSince <;> simp [Port.lineRises, hc, hx, hlow]

theorem lineRises_bck_not_counting (hc : x.countsGap = false) :
    x.lineRises .bck now = { x with bckLowSince := none } := by simp [Port.lineRises, hc]

theorem lineRises_bda_not_counting (hc : x.countsGap = false) :
    x.lineRises .bda now = { x with bdaLowSince := none } := by simp [Port.lineRises, hc]

theorem bckRisesInRecovery_gap {y : Port}
    (hy : y.state = .idle ∨ (y.state = .recovering ∧ y.recovery.map (·.phase) = some .gap)) :
    y.bckRisesInRecovery now = y := by
  unfold Port.bckRisesInRecovery
  rcases hy with hy | ⟨hy, hphase⟩
  · simp only [hy]
  · cases hv : y.recovery with
    | none => simp only [hy]
    | some v =>
      rw [hv] at hphase
      simp only [hy, Option.some.inj hphase]

/-! ### The recovery procedure (R37, R38) -/

theorem plain_finishAdmin {status : Status} {n : Word32} (h : Plain s p) : Plain (s.finishAdmin status n) p := by
  obtain ⟨_, _, hframe⟩ := s.finishAdmin_frame status n
  rw [hframe]
  exact h

theorem plain_endRecover {q : PortId} {status : Status} (h : Plain s p) : Plain (s.endRecover q status) p := by
  unfold State.endRecover
  split
  · exact plain_finishAdmin h
  · exact h

theorem plain_portDown {q : PortId} (h : Plain s p) : Plain (s.portDown q) p := by
  rw [portDown_eq]
  refine plain_foldl (fun u r hu => ?_) _ h
  unfold downStep
  split
  · split
    · exact plain_completeExec hu
    · exact hu
  · exact hu

theorem plain_recovered (h : Plain s p) (hx : x.stopPending = false) : Plain (s.recovered p x) p :=
  plain_recheckHeld (plain_endRecover (plain_setPort h hx))

theorem plain_recoveryFails (h : Plain s p) (hx : x.stopPending = false) : Plain (s.recoveryFails p x) p :=
  plain_portDown (plain_endRecover (plain_setPort h hx))

/-- R39: a RECOVER in progress ends with the recovery, by whether there is one. -/
theorem endRecover_none {status : Status} (ha : s.admin ≠ .recovering p) : s.endRecover p status = s := if_neg ha

theorem endRecover_some {status : Status} {tag : BitVec 16} {cmd : AdminCmd} (ha : s.admin = .recovering p)
    (ho : (s.sub 0).occupancy = .staged) (hs : (s.sub 0).staged = some (.admin tag cmd))
    (hc : (s.sub 0).completion = some 0) : s.endRecover p status = commandEnds s tag status := by
  rw [State.endRecover, if_pos ha, finishAdmin_of_staged ho hs hc]

section
variable (h : Plain s p) (hs : (s.port p).state = .recovering) (hv : (s.port p).recovery = some v)
include h hs hv

/-- R37: a pulse after which BDA is high. -/
theorem clockPulse_recessive (hphase : v.phase = .waiting ∨ v.phase = .clocking) :
    exec (.clockPulse p .recessive) s =
      .next
        (s.setPort p
          { s.port p with
            recovery := some
              { phase := .closing, pulses := v.pulses + 1, waitSince := s.timeBase + micros (s.port p).config.rate.bitTime },
            bckDriver := .drivenLow, bdaDriver := .drivenLow, bckLowSince := some (s.timeBase + (s.port p).halfBit),
            bdaLowSince := some (s.timeBase + (s.port p).halfBit) }) := by
  refine next_event h ?_ (plain_setPort h h.2)
  simp only [hs, hv, if_pos hphase]

section
variable (hphase : v.phase = .waiting ∨ v.phase = .clocking)
include hphase

theorem clockPulse_dominant (hn : v.pulses + 1 < 16) :
    exec (.clockPulse p .dominant) s =
      .next
        (s.setPort p
          { s.port p with
            recovery := some
              { phase := .clocking, pulses := v.pulses + 1, waitSince := s.timeBase + micros (s.port p).config.rate.bitTime },
            bckLowSince := some (s.timeBase + (s.port p).halfBit), bdaLowSince := some (s.timeBase + (s.port p).halfBit) }) := by
  refine next_event h ?_ (plain_setPort h h.2)
  have hmore : ¬ Config.maxPulses ≤ v.pulses + 1 := Nat.not_le.2 hn
  simp only [hs, hv, if_pos hphase, if_neg hmore]

theorem clockPulse_last (hn : 16 ≤ v.pulses + 1) :
    exec (.clockPulse p .dominant) s =
      .next
        (s.recoveryFails p
          { s.port p with
            bckLowSince := none,
            bdaLowSince := some
              (Safety.bdaLowAt (if v.phase = .waiting then { s.port p with bckLowSince := none } else s.port p)
                s.timeBase) }) := by
  have hlast : Config.maxPulses ≤ v.pulses + 1 := hn
  refine next_event h ?_ (plain_recoveryFails h h.2)
  simp only [hs, hv, if_pos hphase, if_pos hlast, Port.bdaLowAt_eq, Port.endBit_eq]

end

theorem recoveryFailed_due {line : Line} (hl : (s.port p).recoveryLimit v line s.timeBase = some s.timeBase)
    (hstop : ((s.port p).failsBy v line s.timeBase).stopPending = false) :
    exec (.recoveryFailed p line) s = .next (s.recoveryFails p ((s.port p).failsBy v line s.timeBase)) := by
  refine next_event h ?_ (plain_recoveryFails h hstop)
  simp only [hs, hv, hl, reach_self]

theorem recoveryFailed_cannot {line : Line} (hl : (s.port p).recoveryLimit v line s.timeBase = none) :
    exec (.recoveryFailed p line) s = .next s :=
  next_event h (by simp only [hs, hv, hl]) h

theorem closing_recovering : exec (.closing p) s = .next (s.setPort p ((s.port p).closesInRecovery s.timeBase)) := by
  refine next_event h (by simp only [hs]) (plain_setPort h ?_)
  rw [Port.closesInRecovery, hv]
  dsimp only
  split <;> exact h.2

end

/-- R38, R39: how the obligation states an end of recovery, by whether a RECOVER is in progress. -/
def RecoveryEnds (s : State) (p : PortId) (c : Instr) (y : Port) (status : Status) (after : State → State) : Prop :=
  (s.admin ≠ .recovering p → exec c s = .next (after (s.setPort p y))) ∧
  ∀ tag cmd, s.admin = .recovering p → (s.sub 0).occupancy = .staged → (s.sub 0).staged = some (.admin tag cmd) →
    (s.sub 0).completion = some 0 → exec c s = .next (after (commandEnds (s.setPort p y) tag status))

theorem recoveryEnds_of_exec {c : Instr} {y : Port} {status : Status} {after : State → State}
    (hc : exec c s = .next (after ((s.setPort p y).endRecover p status))) : RecoveryEnds s p c y status after := by
  refine ⟨fun ha => ?_, fun tag cmd ha ho hs hcpl => ?_⟩
  · rw [hc, endRecover_none (s := s.setPort p y) ha]
  · rw [hc, endRecover_some (s := s.setPort p y) ha ho hs hcpl]

theorem recoveryEnds_of_fails {c : Instr} {bckLow bdaLow : Option Time}
    (hc : exec c s = .next (s.recoveryFails p { s.port p with bckLowSince := bckLow, bdaLowSince := bdaLow })) :
    RecoveryEnds s p c
      { idleAfter (s.port p) none with state := .faulted, bckLowSince := bckLow, bdaLowSince := bdaLow } .portBusy
      (·.portDown p) :=
  recoveryEnds_of_exec hc

/-- R21: BDA's low time where BCK has been low since `fall`. -/
theorem bckLowFrom_eq {fall : Time} :
    x.bckLowFrom fall = { x with bckLowSince := some fall, bdaLowSince := lowAfterFall x.bdaLowSince fall } := by
  simp only [Port.bckLowFrom, lowAfterFall, reach_eq]

end Sys2Proof.Machine
end

section
/-!
PROOFS. The stuck condition in every state that acts on one, and with it O50.
-/
namespace Sys2Proof.Machine
open Sys2Proof.Safety

variable {s t : State} {p : PortId} {x : Port} {now : Time} {f : FrameRec} {line : Line} {low : Time}

/-! ### The port that starts to recover (R21, R36, R37) -/

theorem lowSince_eq (hl : LowSince x line low) : x.lowSince line = some low := by
  rcases hl with hl | ⟨hl, hs⟩
  · cases line <;> simp only [Port.lowSince, hl] <;> rfl
  · cases line <;> simp only [Port.lowSince, hl, hs] <;> rfl

/-- R21: the port with the low time of a line held from `low` on. -/
def heldLow (x : Port) (line : Line) (low : Time) : Port :=
  match line with
  | .bck => { x with bckLowSince := some low, bdaLowSince := lowAfterFall x.bdaLowSince low }
  | .bda => { x with bdaLowSince := some low }

theorem holdsLow_eq (hl : x.lowSince line = some low) : x.holdsLow line now = heldLow x line low := by
  cases line
  · rw [Port.holdsLow, hl]
    exact bckLowFrom_eq
  · rw [Port.holdsLow, hl]
    rfl

theorem toRecovering_eq : x.toRecovering now = recovers x now := by
  cases hlow : x.bckLowSince <;>
    simp [Port.toRecovering, recovers, recoveryStart, hlow, Port.firstPulse, Port.halfBit, micros, Port.toIdle, idleAfter]

/-- R36: the port after its stuck event, with its window at `w`. -/
def stuckPort (x : Port) (line : Line) (low now : Time) (w : Window) : Port :=
  { recovers (heldLow x line low) now with
    window := w, stats := { x.stats with stuckEvents := x.stats.stuckEvents + 1 } }

/-! ### What the port was doing is handed over (R36) -/

/-- R36: the port goes to RECOVERING, and its snapshot area is absent. -/
def State.stuckOver (s : State) (p : PortId) (line : Line) (now : Time) : State :=
  (s.setPort p (((s.port p).holdsLow line now).toRecovering now)).setSnapshot p none

section
variable {r : SubId} {c : CplId} {e : CplEntry} {abort : Option (BitVec 16 × Status)}

theorem stuckOver_release {res : Option RcvId} :
    (s.release res).stuckOver p line now = (s.stuckOver p line now).release res := by cases res <;> rfl

theorem stuckOver_claimAtPosting {r : RcvId} {e : RcvEntry} :
    (s.claimAtPosting r e).stuckOver p line now = (s.stuckOver p line now).claimAtPosting r e := by
  have hk : (s.stuckOver p line now).rcv r = s.rcv r := rfl
  unfold State.claimAtPosting
  rw [hk]
  split <;> rfl

theorem stuckOver_completed :
    (completed s r c e abort).stuckOver p line now = completed (s.stuckOver p line now) r c e abort := by
  cases abort <;> rfl

theorem stuckOver_queryDropped {q : QueryDetails} {y : StagedXfer} {n : Nat} {reason : CloseReason} :
    (queryDropped s p q r c y n reason abort).stuckOver p line now =
      queryDropped (s.stuckOver p line now) p q r c y n reason abort := by
  unfold queryDropped
  rw [stuckOver_claimAtPosting, stuckOver_completed]
  rfl

end

theorem stuckOver_count (hl : (s.port p).lowSince line = some low) :
    (s.count p .stuckEvents).stuckOver p line now =
      (s.setPort p (stuckPort (s.port p) line low now (s.port p).window)).setSnapshot p none := by
  have hl' : ({ s.port p with stats := (s.port p).stats.count .stuckEvents } : Port).lowSince line = some low := by
    cases line <;> exact hl
  rw [State.stuckOver, State.count_port_self, State.count, State.setPort_setPort, holdsLow_eq hl', toRecovering_eq]
  cases line <;> rfl

theorem stuckOver_count_window {w : Window} (hl : (s.port p).lowSince line = some low) :
    ((s.count p .stuckEvents).setPort p { (s.count p .stuckEvents).port p with window := w }).stuckOver p line now =
      (s.setPort p (stuckPort (s.port p) line low now w)).setSnapshot p none := by
  have hl' : ({ s.port p with stats := (s.port p).stats.count .stuckEvents, window := w } : Port).lowSince line =
      some low := by cases line <;> exact hl
  rw [State.stuckOver, State.setPort_port_self, State.setPort_setPort, State.count_port_self, State.count,
    State.setPort_setPort, holdsLow_eq hl', toRecovering_eq]
  cases line <;> rfl

theorem plain_stickTurn {r : SubId} (h : Plain s p) : Plain (s.stickTurn r) p := by
  unfold State.stickTurn
  split
  · exact h
  · exact plain_completeExec h

theorem plain_handOverStuck {y : Port} (h : Plain s p) : Plain (s.handOverStuck p y) p := by
  unfold State.handOverStuck
  split
  · split
    · exact plain_stickTurn h
    · exact plain_endAttempt h
    · exact plain_dropService h
    · exact h
  · exact h

theorem plain_stuckOver (h : Plain s p) : Plain (s.stuckOver p line now) p := by
  have hstop : (((s.port p).holdsLow line now).toRecovering now).stopPending = false := by cases line <;> exact h.2
  exact plain_setPort h hstop

/-! ### The row, by the state of the port -/

section
variable (h : Plain s p)
include h

theorem stuckCondition_ignored
    (hs : (s.port p).state = .off ∨ (s.port p).state = .holding ∨ (s.port p).state = .recovering ∨
      (s.port p).state = .faulted) (line : Line) : exec (.stuckCondition p line) s = .next s :=
  next_event h (by rcases hs with hs | hs | hs | hs <;> simp only [hs]) h

variable (hl : LowSince (s.port p) line low)
  (hnow : s.timeBase = low + BitVec.ofNat 32 (1000 * (s.port p).config.stuckLimit))
include hl hnow

theorem stuckCondition_met
    (hs : (s.port p).state = .idle ∨ (s.port p).state = .observing ∨ (s.port p).state = .arbitrating ∨
      (s.port p).state = .initiating ∨ (s.port p).state = .serving)
    (ht : (s.count p .stuckEvents).handOverStuck p (s.port p) = t) (htime : t.timeBase = s.timeBase) :
    exec (.stuckCondition p line) s = .next (t.stuckOver p line s.timeBase) := by
  have hplain : Plain t p := ht ▸ plain_handOverStuck (plain_count h)
  refine next_event h ?_ (plain_stuckOver hplain)
  have hdue : dueAfter ((s.port p).lowSince line) (1000 * (s.port p).config.stuckLimit) s.timeBase = s.timeBase := by
    rw [lowSince_eq hl, dueAfter, micros, ← hnow, reach_self]
  have hstop : (s.port p).stopPending = false := h.2
  have hstep : (if (s.port p).stopPending = true then
        ((((s.count p .stuckEvents).handOverStuck p (s.port p)).setSnapshot p none).enterOff p).inRingOrder s
      else
        (((s.count p .stuckEvents).handOverStuck p (s.port p)).setSnapshot p none).setPort p
          ((((((s.count p .stuckEvents).handOverStuck p (s.port p)).setSnapshot p none).port p).holdsLow line
            (((s.count p .stuckEvents).handOverStuck p (s.port p)).setSnapshot p none).timeBase).toRecovering
            (((s.count p .stuckEvents).handOverStuck p (s.port p)).setSnapshot p none).timeBase)) =
      t.stuckOver p line s.timeBase := by
    rw [if_neg (by simp [hstop]), ht, State.setSnapshot_timeBase, htime]
    rfl
  rcases hs with hs | hs | hs | hs | hs <;> simp only [hs, hdue] <;> exact hstep

/-- R36: the state with its port stuck and nothing handed over. -/
abbrev stuckState (s : State) (p : PortId) (line : Line) (low : Time) (w : Window) : State :=
  (s.setPort p (stuckPort (s.port p) line low s.timeBase w)).setSnapshot p none

omit h hl hnow in
theorem stuckState_window {res : Option RcvId} {w w' : Window} :
    ((stuckState s p line low w').release res).setPort p (stuckPort (s.port p) line low s.timeBase w) =
      (stuckState s p line low w).release res := by
  have hport : (stuckState s p line low w').setPort p (stuckPort (s.port p) line low s.timeBase w) =
      stuckState s p line low w := by simp [stuckState, State.setSnapshot, State.setPort]
  cases res with
  | none => exact hport
  | some r => exact congrArg (State.release · (some r)) hport

theorem stuckCondition_without_part
    (hs : (s.port p).state = .idle ∨ (s.port p).state = .observing ∨
      ((s.port p).state = .arbitrating ∧ (s.port p).frame.bind (·.turn) = none)) :
    exec (.stuckCondition p line) s = .next (stuckState s p line low (s.port p).window) := by
  have hnothing : (s.count p .stuckEvents).handOverStuck p (s.port p) = s.count p .stuckEvents := by
    unfold State.handOverStuck
    cases hf : (s.port p).frame with
    | none => rfl
    | some f =>
      rcases hs with hs | hs | ⟨hs, ht⟩
      · simp only [hs]
      · simp only [hs]
      · rw [hf] at ht
        simp only [hs, show f.turn = none from ht]
  rw [stuckCondition_met h hl hnow (by tauto) hnothing rfl, stuckOver_count (lowSince_eq hl)]

section
variable (hf : (s.port p).frame = some f) {r : SubId} (ht : f.turn = some r) {y : StagedXfer} {e : ExecRec}
  (he : s.execOf r = some (y, e)) (hq : (s.sub r).port = some p) {c : CplId} (hc : (s.sub r).completion = some c)
  {abort : Option (BitVec 16 × Status)} (ha : AbortWaits s r abort)
include hf ht he hq hc ha

/-- R56: the turn of a port that gets stuck ends without an attempt. -/
theorem stuckCondition_arbitrating (hs : (s.port p).state = .arbitrating) :
    exec (.stuckCondition p line) s =
      .next
        (completed (stuckState s p line low (s.port p).window) r c (execEntry s r y e .busStuck e.lastBytes) abort) := by
  have hsilent : (s.count p .stuckEvents).tellHealth p y.desc .busStuck = s.count p .stuckEvents :=
    State.tellHealth_of_no_outcome (by simp)
  have hover : (s.count p .stuckEvents).handOverStuck p (s.port p) =
      completed (s.count p .stuckEvents) r c (execEntry (s.count p .stuckEvents) r y e .busStuck e.lastBytes) abort := by
    have hexec : (s.count p .stuckEvents).execOf r = some (y, e) := he
    simp only [State.handOverStuck, hf, hs, ht, State.stickTurn, hexec]
    rw [State.completeExec_told (s := s.count p .stuckEvents) he hq hc ha, hsilent]
  rw [stuckCondition_met h hl hnow (by tauto) hover (by cases abort <;> rfl), stuckOver_completed,
    stuckOver_count (lowSince_eq hl)]
  rfl

/-- R56: the attempt of a port that gets stuck ends BUS_STUCK. -/
theorem stuckCondition_initiating (hs : (s.port p).state = .initiating) (h15 : e.attempts ≤ 15) {n : Nat}
    (hn : n = if y.desc.kind = .query then 0 else f.moved) :
    exec (.stuckCondition p line) s =
      .next
        (completed (withExec (stuckState s p line low (s.port p).window) r y (e.ended (some .busStuck) n)) r c
          (execEntry s r y (e.ended (some .busStuck) n) .busStuck n) abort) := by
  have hmoved : bytesMoved y.desc.kind .busStuck f.moved e.replyArea = n := by
    rw [hn]
    simp [bytesMoved]
  have hsilent (u : State) : u.tellHealth p y.desc .busStuck = u := State.tellHealth_of_no_outcome (by simp)
  have hover : (s.count p .stuckEvents).handOverStuck p (s.port p) =
      completed (withExec (s.count p .stuckEvents) r y (e.ended (some .busStuck) n)) r c
        (execEntry (withExec (s.count p .stuckEvents) r y (e.ended (some .busStuck) n)) r y (e.ended (some .busStuck) n)
          .busStuck n) abort := by
    simp only [State.handOverStuck, hf, hs, ht]
    rw [State.endAttempt_busStuck (s := s.count p .stuckEvents) he h15 hmoved rfl,
      State.completeExec_withExec (s := s.count p .stuckEvents) he hq hc ha, hsilent]
  have hentry : execEntry (withExec (s.count p .stuckEvents) r y (e.ended (some .busStuck) n)) r y
      (e.ended (some .busStuck) n) .busStuck n = execEntry s r y (e.ended (some .busStuck) n) .busStuck n := by
    simp [execEntry, plainEntry, withExec, State.count]
  have hcomm : (withExec (s.count p .stuckEvents) r y (e.ended (some .busStuck) n)).stuckOver p line s.timeBase =
      withExec ((s.count p .stuckEvents).stuckOver p line s.timeBase) r y (e.ended (some .busStuck) n) := rfl
  rw [stuckCondition_met h hl hnow (by tauto) hover (by cases abort <;> rfl), stuckOver_completed, hentry, hcomm,
    stuckOver_count (lowSince_eq hl)]

end

section
variable (hs : (s.port p).state = .serving) (hf : (s.port p).frame = some f)
include hs hf

omit h hl hnow in
theorem handOverStuck_serving :
    (s.count p .stuckEvents).handOverStuck p (s.port p) = (s.count p .stuckEvents).dropService p f .busStuck := by
  simp only [State.handOverStuck, hf, hs]

/-- R97: a reservation is released as the port gets stuck. -/
theorem stuckCondition_serving (hw : isReplying (s.port p).window = false) :
    exec (.stuckCondition p line) s =
      .next ((stuckState s p line low (s.port p).window).release (f.service.bind (·.reservation))) := by
  rw [← State.count_window (n := .stuckEvents)] at hw
  have hover := (handOverStuck_serving hs hf).trans (State.dropService_of_not_replying hw)
  have htime {res : Option RcvId} : ((s.count p .stuckEvents).release res).timeBase = s.timeBase := by cases res <;> rfl
  rw [stuckCondition_met h hl hnow (by tauto) hover htime, stuckOver_release, stuckOver_count (lowSince_eq hl)]

/-- R119: a reply in progress ends as the port gets stuck. -/
theorem stuckCondition_replying {q : QueryDetails} {reply : LatchedReply} {r : SubId} {c : CplId} {y : StagedXfer}
    {abort : Option (BitVec 16 × Status)} (hw : (s.port p).window = .replying q reply r) (hy : s.stagedOf r = some y)
    (hc : (s.sub r).completion = some c) (ha : AbortWaits s r abort) :
    exec (.stuckCondition p line) s =
      .next
        (queryDropped ((stuckState s p line low .none).release (f.service.bind (·.reservation))) p q r c y f.accepted
          .busStuck abort) := by
  have hw' : ((s.count p .stuckEvents).port p).window = .replying q reply r := by rw [State.count_window, hw]
  have hover := (handOverStuck_serving hs hf).trans
    (State.dropService_of_replying (s := s.count p .stuckEvents) (reason := .busStuck) hw' hy hc ha)
  rw [stuckCondition_met h hl hnow (by tauto) hover ?_, stuckOver_queryDropped, stuckOver_release,
    stuckOver_count_window (lowSince_eq hl)]
  rw [queryDropped, claimAtPosting_timeBase]
  cases abort <;> cases f.service.bind (·.reservation) <;> rfl

end

end

/-! ### Lines and a closing outside a frame -/

section
variable (h : Plain s p)
include h

theorem bckRises_counting
    (hs : (s.port p).state = .idle ∨ ((s.port p).state = .recovering ∧ (s.port p).recovery.map (·.phase) = some .gap))
    (hx : (s.port p).idleSince = none) :
    exec (.lineGoesLow p .bck .rises) s =
      .next
        (s.setPort p
          { s.port p with
            bckLowSince := none, idleSince := if (s.port p).bdaLowSince = none then some s.timeBase else none,
            idleFull := if (s.port p).bdaLowSince = none then false else (s.port p).idleFull }) := by
  refine bckRises h (by tauto) ?_ h.2
  rw [lineRises_bck_counting (countsGap_iff.2 hs) hx]
  exact bckRisesInRecovery_gap hs

theorem bdaRises_counting
    (hs : (s.port p).state = .idle ∨ ((s.port p).state = .recovering ∧ (s.port p).recovery.map (·.phase) = some .gap))
    (hx : (s.port p).idleSince = none) :
    exec (.lineGoesLow p .bda .rises) s =
      .next
        (s.setPort p
          { s.port p with
            bdaLowSince := none, idleSince := if (s.port p).bckLowSince = none then some s.timeBase else none,
            idleFull := if (s.port p).bckLowSince = none then false else (s.port p).idleFull }) :=
  bdaRises h (by tauto) (lineRises_bda_counting (countsGap_iff.2 hs) hx) h.2

/-- R21: a FAULTED port measures the lines, and counts no gap. -/
theorem faulted_measures (hs : (s.port p).state = .faulted) :
    exec (.lineGoesLow p .bck .rises) s = .next (s.setPort p { s.port p with bckLowSince := none }) ∧
    exec (.lineGoesLow p .bda .rises) s = .next (s.setPort p { s.port p with bdaLowSince := none }) ∧
    exec (.closing p) s = .next (s.setPort p { s.port p with bckLowSince := none, bdaLowSince := none }) := by
  have hc : (s.port p).countsGap = false := by simp [Port.countsGap, hs]
  refine ⟨bckRises h (by tauto) ?_ h.2, bdaRises h (by tauto) (lineRises_bda_not_counting hc) h.2,
    next_event h (by simp only [hs]) (plain_setPort h h.2)⟩
  rw [lineRises_bck_not_counting hc]
  simp only [Port.bckRisesInRecovery, hs]

/-! ### The recovery procedure, by its phase -/

omit h in
theorem recoveryLimit_gap (hphase : v.phase = .gap)
    (ht : (match line with | .bck => x.bckLowSince | .bda => x.bdaLowSince) = some low)
    (hnow : now = low + micros (1000 * x.config.stuckLimit)) : x.recoveryLimit v line now = some now := by
  cases line <;> simp only at ht <;> simp only [Port.recoveryLimit, hphase, ht, Option.map_some, ← hnow]

omit h in
theorem closesInRecovery_own (hv : x.recovery = some v) (hphase : v.phase = .closing ∨ v.phase = .releasing) :
    x.closesInRecovery now =
      { x with
        recovery := some { v with phase := .gap }, idleSince := some now, idleFull := false, bckLowSince := none,
        bdaLowSince := none, bckDriver := .released, bdaDriver := .released } := by
  rcases hphase with hphase | hphase <;> simp only [Port.closesInRecovery, hv, hphase] <;> rfl

omit h in
theorem closesInRecovery_gap (hv : x.recovery = some v) (hphase : v.phase = .gap) :
    x.closesInRecovery now =
      { x with idleSince := some now, idleFull := false, bckLowSince := none, bdaLowSince := none } := by
  simp [Port.closesInRecovery, hv, hphase, Port.seesClosing]

omit h in
theorem closesInRecovery_clocking (hv : x.recovery = some v) (hphase : v.phase = .clocking) :
    x.closesInRecovery now = { x with bdaLowSince := none } := by simp only [Port.closesInRecovery, hv, hphase]

omit h in
theorem closesInRecovery_waiting (hv : x.recovery = some v) (hphase : v.phase = .waiting) :
    x.closesInRecovery now = x := by simp only [Port.closesInRecovery, hv, hphase]

variable (hs : (s.port p).state = .recovering) (hv : (s.port p).recovery = some v)
include hs hv

theorem recoveryFailed_ends {bckLow bdaLow : Option Time}
    (hl : (s.port p).recoveryLimit v line s.timeBase = some s.timeBase)
    (hf : (s.port p).failsBy v line s.timeBase = { s.port p with bckLowSince := bckLow, bdaLowSince := bdaLow }) :
    RecoveryEnds s p (.recoveryFailed p line)
      { idleAfter (s.port p) none with state := .faulted, bckLowSince := bckLow, bdaLowSince := bdaLow } .portBusy
      (·.portDown p) := by
  refine recoveryEnds_of_fails ?_
  rw [recoveryFailed_due h hs hv hl (by rw [hf]; exact h.2), hf]

theorem bckRises_in_phase (hgap : v.phase ≠ .gap)
    (hx : ({ s.port p with bckLowSince := none } : Port).bckRisesInRecovery s.timeBase = x) (hstop : x.stopPending = false) :
    exec (.lineGoesLow p .bck .rises) s = .next (s.setPort p x) := by
  have hc : (s.port p).countsGap = false := by simp [Port.countsGap, hs, hv, hgap]
  refine bckRises h (by tauto) ?_ hstop
  rw [lineRises_bck_not_counting hc, hx]

theorem bckRises_waiting (hphase : v.phase = .waiting) :
    exec (.lineGoesLow p .bck .rises) s =
      .next
        (s.setPort p
          { s.port p with
            bckLowSince := some s.timeBase, bdaLowSince := (s.port p).bdaLowSince.map fun _ => s.timeBase,
            recovery := some { phase := .clocking, pulses := 0, waitSince := s.timeBase + (s.port p).halfBit } }) := by
  refine bckRises_in_phase h hs hv (by simp [hphase]) ?_ h.2
  simp only [Port.bckRisesInRecovery, hs, hv, hphase]
  rfl

theorem bckRises_closing (hphase : v.phase = .closing) :
    exec (.lineGoesLow p .bck .rises) s =
      .next
        (s.setPort p
          { s.port p with
            bckLowSince := none, bckDriver := .released,
            recovery := some { v with phase := .releasing, waitSince := s.timeBase + (s.port p).quarterBit } }) := by
  refine bckRises_in_phase h hs hv (by simp [hphase]) ?_ h.2
  simp only [Port.bckRisesInRecovery, hs, hv, hphase]
  rfl

theorem closing_in_phase (hx : (s.port p).closesInRecovery s.timeBase = x) :
    exec (.closing p) s = .next (s.setPort p x) := by
  rw [closing_recovering h hs hv, hx]

/-- R38, R39: recovery succeeds in the gap. -/
theorem recovery_succeeds (hgap : v.phase = .gap) :
    (∀ t, (s.port p).idleSince = some t →
      s.timeBase = t + BitVec.ofNat 32 (8 * (s.port p).config.rate.bitTime) →
      RecoveryEnds s p (.idleGap p) { idleAfter (s.port p) (some t) with busView := .free, idleFull := true } .success
        (·.recheckHeld p)) ∧
    RecoveryEnds s p (.opening p) (opened (s.port p) s.timeBase) .success (·.recheckHeld p) := by
  refine ⟨fun t ht hnow => ?_, ?_⟩
  · exact recoveryEnds_of_exec (idleGap_recovers h hs hv hgap ht hnow (plain_recovered h h.2))
  · exact recoveryEnds_of_exec (opening_recovers h hs hv hgap (plain_recovered h h.2))

end

/-- Settles O50: the gap and the lines, the stuck condition by the port's state, and the recovery by its phase. -/
theorem recoveryFreesOrFaultsPort : Obligations.RecoveryFreesOrFaultsPort := by
  intro s p h x now bit half quarter limit
  refine ⟨fun hs => ⟨idleGap_nothing h hs, fun t ht hfull hnow => idleGap_frees h hs ht hfull hnow⟩, fun hx => ?idle,
    fun t ht => ⟨fun hfull => ?full, fun hfull => ?counting⟩,
    fun hs hx => ⟨bckRises_counting h hs hx, bdaRises_counting h hs hx⟩,
    fun hs => ⟨lineGoesLow_falls h hs, lineGoesLow_falls h hs⟩, faulted_measures h, stuckCondition_ignored h,
    ?stuck, ?recovery⟩
  case idle => simp only [State.idleTime, show (s.port p).idleSince = none from hx]
  case full =>
    simp only [State.idleTime, show (s.port p).idleSince = some t from ht, show (s.port p).idleFull = true from hfull, if_true]
    rfl
  case counting =>
    simp only [State.idleTime, show (s.port p).idleSince = some t from ht, show (s.port p).idleFull = false from hfull]
    rfl
  case stuck =>
    intro line t hl hnow y stuck u
    have hu : u = stuckState s p line t (s.port p).window := by cases line <;> rfl
    have hw : ∀ res, (u.release res).setPort p { stuck with window := .none } = (stuckState s p line t .none).release res := by
      have hstuck : ({ stuck with window := .none } : Port) = stuckPort (s.port p) line t s.timeBase .none := by
        cases line <;> rfl
      intro res
      rw [hu, hstuck]
      exact stuckState_window
    refine ⟨fun hs => ?_, fun f r y e c abort hf ht he hq hc ha => ⟨?_, ?_⟩,
      fun f hs hf => ?_⟩
    · rw [hu]
      exact stuckCondition_without_part h hl hnow hs
    · intro hs
      rw [hu]
      exact stuckCondition_arbitrating h hl hnow hf ht he hq hc ha hs
    · intro hs h15 n e1
      rw [hu]
      exact stuckCondition_initiating h hl hnow hf ht he hq hc ha hs h15 rfl
    · intro released
      refine ⟨fun hw => ?_, fun q reply r y c abort hwin hy hc ha => ?_⟩
      · rw [stuckCondition_serving h hl hnow hs hf hw, ← hu]
      · rw [hw, stuckCondition_replying h hl hnow hs hf hwin hy hc ha]
  case recovery =>
    intro v hs hv goes ends fails frees
    refine ⟨fun hphase => ⟨?_, fun hn => ⟨?_, ?_⟩, fun hn => ?_⟩, fun hphase hn => ?_, fun hphase hnow => ?_,
      fun hphase hnow => ?_, fun hphase hnow => ?_, fun hphase => ⟨fun hnow => ?_, ?_⟩, fun line t hphase ht hnow => ?_,
      fun hphase => bckRises_waiting h hs hv hphase, fun hphase => bckRises_closing h hs hv hphase,
      fun hphase => ?_, fun hphase => ?_, fun hphase => ?_, fun hphase => ?_, fun t hphase => ?_, fun hphase => ?_⟩
    · exact clockPulse_recessive h hs hv hphase
    · exact clockPulse_dominant h hs hv hphase hn
    · refine recoveryFailed_cannot h hs hv ?_
      rcases hphase with hphase | hphase
      · simp [Port.recoveryLimit, hphase]
      · have hmore : ¬ Config.maxPulses ≤ v.pulses + 1 := Nat.not_le.2 hn
        simp only [Port.recoveryLimit, hphase, if_neg hmore]
    · exact recoveryEnds_of_fails (clockPulse_last h hs hv hphase hn)
    · refine recoveryFailed_ends h hs hv ?_ ?_
      · simp [Port.recoveryLimit, hphase, Config.maxPulses, hn]
      · simp only [Port.failsBy, hphase, Port.bdaLowAt_eq, Port.endBit_eq]
        rfl
    · refine recoveryFailed_ends h hs hv ?_ ?_
      · simp only [Port.recoveryLimit, hphase]
        exact congrArg some hnow.symm
      · simp only [Port.failsBy, hphase]
        rfl
    · refine recoveryFailed_ends h hs hv ?_ ?_
      · rcases hphase with hphase | hphase <;> simp only [Port.recoveryLimit, hphase] <;> exact congrArg some hnow.symm
      · rcases hphase with hphase | hphase <;> (simp only [Port.failsBy, hphase]; exact bckLowFrom_eq)
    · refine recoveryFailed_ends h hs hv ?_ ?_
      · simp only [Port.recoveryLimit, hphase]
        exact congrArg some hnow.symm
      · simp only [Port.failsBy, hphase]
        rfl
    · refine recoveryFailed_ends h hs hv ?_ ?_
      · simp only [Port.recoveryLimit, hphase]
        exact congrArg some hnow.symm
      · simp only [Port.failsBy, hphase]
        rfl
    · exact recoveryFailed_cannot h hs hv (by simp [Port.recoveryLimit, hphase])
    · refine recoveryFailed_ends h hs hv ?_ ?_
      · exact recoveryLimit_gap hphase ht hnow
      · cases line <;> simp only [Port.failsBy, hphase] <;> rfl
    · exact closing_in_phase h hs hv (closesInRecovery_own hv hphase)
    · exact closing_in_phase h hs hv (closesInRecovery_gap hv hphase)
    · exact closing_in_phase h hs hv (closesInRecovery_clocking hv hphase)
    · rw [closing_in_phase h hs hv (closesInRecovery_waiting hv hphase), State.setPort_self]
    · exact (recovery_succeeds h hs hv hphase).1 t
    · exact (recovery_succeeds h hs hv hphase).2

end Sys2Proof.Machine
end

section
/-!
PROOFS. The entry into FAILED and the port that drives on there (O11).
-/
namespace Sys2Proof.Machine
open Sys2Proof.Safety

variable {s t : State} {p : PortId} {f : FrameRec} {c : Instr}

/-! ### What completions leave of a port: its state and its frame record -/

theorem portDown_port_state {q : PortId} : ((s.portDown q).port p).state = (s.port p).state := by
  have hstep (u : State) (r : SubId) : ((downStep q u r).port p).state = (u.port p).state := by
    unfold downStep
    split
    · split
      · exact u.completeExec_port_state ..
      · rfl
    · rfl
  rw [portDown_eq]
  generalize allSubs = l
  induction l generalizing s with
  | nil => rfl
  | cons r l ih => exact ih.trans (hstep s r)

theorem enterOff_port_state : ((s.enterOff p).port p).state = .off := by
  have hoff : ((((s.setPort p (s.port p).goOff).setSnapshot p none).portDown p).port p).state = .off := by
    rw [portDown_port_state, State.setSnapshot_port, State.setPort_port_self]
    rfl
  unfold State.enterOff
  dsimp only
  split
  · obtain ⟨_, _, h⟩ := (((s.setPort p (s.port p).goOff).setSnapshot p none).portDown p).finishAdmin_frame .success 0
    rw [State.port_of_ports (s := ((s.setPort p (s.port p).goOff).setSnapshot p none).portDown p) (by rw [h]), hoff]
  · exact hoff

/-- R34, R35: the end of a happening leaves its port as it is, or takes it OFF. -/
theorem settle_port : (t.settle p s).port p = t.port p ∨ ((t.settle p s).port p).state = .off := by
  have hhalt (u : State) : u.settleHalt.port p = u.port p := by
    unfold State.settleHalt
    split <;> rfl
  rw [State.settle, hhalt, State.settleStop]
  split
  · rw [State.inRingOrder_port]
    exact .inr enterOff_port_state
  · exact .inl rfl

theorem count_port_frame {q : PortId} {n : Counter} : ((s.count q n).port p).frame = (s.port p).frame := by
  by_cases h : p = q
  · subst h
    rw [State.count_port_self]
  · rw [State.count_port_ne _ _ _ _ h]

theorem tellHealth_port_frame {q : PortId} {d : Desc} {status : Status} :
    ((s.tellHealth q d status).port p).frame = (s.port p).frame := by
  have failure : ((s.targetFailure q d.dest).port p).frame = (s.port p).frame := by
    rcases s.targetFailure_cases q d.dest with ⟨_, h⟩ | h <;> rw [h]
    · rfl
    · exact count_port_frame
  have success : ((s.targetSuccess q d.dest).port p).frame = (s.port p).frame := by
    obtain ⟨_, h⟩ := s.targetSuccess_frame q d.dest
    rw [h]
    rfl
  unfold State.tellHealth
  split
  · split
    exacts [failure, failure, failure, failure, success, success, rfl]
  · rfl

theorem completeExec_port_frame {r : SubId} {status : Status} {n : Nat} :
    ((s.completeExec r status n).port p).frame = (s.port p).frame := by
  unfold State.completeExec
  split
  · rw [State.port_of_ports (State.complete_ports ..), tellHealth_port_frame]
  · rfl

theorem loseTurn_port_frame {r : SubId} {patience : Nat} : ((s.loseTurn r patience).port p).frame = (s.port p).frame := by
  unfold State.loseTurn
  split
  · rfl
  · dsimp only
    split_ifs
    exacts [completeExec_port_frame, completeExec_port_frame, completeExec_port_frame, rfl]

theorem attemptOver_port_state {x : Port} {r : SubId} {got : Option AttemptResult} {moved : Nat} :
    ((s.attemptOver p x r got moved).port p).state = x.state := by
  rw [State.attemptOver, State.endAttempt_port_state, State.countFailed]
  split
  · rw [State.count_port_state, State.setPort_port_self]
  · rw [State.setPort_port_self]

/-! ### The entry (R180, R42) -/

theorem fail_port_of_drivesOn {cause : FailureCause} (h : DrivesOn (s.port p)) :
    (s.fail cause).port p = { s.port p with leaving := true, stopPending := false, window := .none } := by
  rw [State.fail_port, Port.leave, if_pos (Port.drivesOn_iff.2 h)]

theorem fail_port_of_not_drivesOn {cause : FailureCause} (h : ¬ DrivesOn (s.port p)) :
    (s.fail cause).port p = offAfter (s.port p) := by
  rw [State.fail_port, Port.leave, if_neg (mt Port.drivesOn_iff.1 h)]
  rfl

/-! ### The faults that lead to it (R178, R144, R162, R152) -/

section
variable (hl : s.live = true)
include hl

theorem adminSlotReadEnd_fault (ho : (s.sub 0).occupancy = .fetching) (hr : (s.sub 0).reading = some .slot) :
    exec (.slotReadEnd 0 .fault) s = .next (s.fail .adminFetchFault) := by
  simp [exec, execSlotReadEnd, hl, ho, hr]

theorem completionWriteEnd_fault {k : CplId} {e : CplEntry} {rest : List CplEntry} {w : DmaWrite}
    (hq : (s.cpl k).queue = e :: rest) (hw : (s.cpl k).writing = some w) :
    exec (.completionWriteEnd k .fault) s = .next (s.fail .completionWriteFault) := by
  simp [exec, execCompletionWriteEnd, hl, hq, hw]

theorem receiveWriteEnd_fault {k : RcvId} {e : RcvEntry} {rest : List RcvEntry} {w : DmaWrite}
    (hq : (s.rcv k).queue = e :: rest) (hw : (s.rcv k).writing = some w) :
    exec (.receiveWriteEnd k .fault) s = .next (s.fail .receiveWriteFault) := by
  simp [exec, execReceiveWriteEnd, hl, hq, hw]

theorem messageWriteEnd_fault {v : VecId} {before after : List Message} {m : Message}
    (hm : s.messages = before ++ m :: after) (hbefore : ∀ x ∈ before, x.vector ≠ v) (hv : m.vector = v) :
    exec (.messageWriteEnd v .fault) s =
      .next (({ s with messages := before ++ after } : State).fail .messageWriteFault) := by
  have hany : s.messages.any (·.vector == v) = true := by simp [hm, hv]
  have herase : s.messages.eraseP (·.vector == v) = before ++ after := by
    rw [hm, List.eraseP_append_right _ (by simpa using hbefore)]
    simp [hv]
  simp [exec, execMessageWriteEnd, hl, hany, herase]

end

/-! ### A port that drives on (R42) -/

theorem receiverBreaks_port_state {low : Option Time} : ((s.receiverBreaks p f low).port p).state = .idle := by
  rw [State.receiverBreaks, State.setSnapshot_port, State.setPort_port_self]
  rfl

/-- R170: what happens at a port in its frame, and is not acted on, changes nothing. -/
theorem settle_self (he : s.engine = .running)
    (hs : (s.port p).state = .arbitrating ∨ (s.port p).state = .initiating ∨ (s.port p).state = .serving) :
    s.settle p s = s := by
  have hstate : ¬ ((s.port p).state = .observing ∨ (s.port p).state = .idle) := by
    rcases hs with hs | hs | hs <;> simp [hs]
  have hstop : s.settleStop p s = s := if_neg fun h => hstate h.2.2
  rw [State.settle, hstop, settleHalt_of_not_halting (by simp [he])]

/-- R11: an initiator sends a byte only for its turn. -/
theorem turn_of_sentRecessive {x : Port} {bit : Fin 8} (hi : x.state = .initiating) (h : s.sentRecessive x f bit = true) :
    ∃ r, f.turn = some r := by
  cases hturn : f.turn with
  | some r => exact ⟨r, rfl⟩
  | none =>
    have hnone : s.sentByte x f = none := by
      have hxfer : s.turnXfer f = none := by simp [State.turnXfer, hturn]
      cases hpos : f.position <;> simp [State.sentByte, hi, hpos, hxfer]
    rw [State.sentRecessive, hnone] at h
    cases h

/-- The same device at work. -/
abbrev working (s : State) : State := { s with engine := .running }

/-- R42: how the obligation states a row that ends what a port drives where it happens to it at all. -/
def EndsIfMet (s : State) (p : PortId) (c : Instr) : Prop :=
  (exec c (working s) = .next (working s) → exec c s = .next s) ∧
  (exec c (working s) ≠ .next (working s) → exec c s = .next (s.leavesFrame p))

section
variable (he : s.engine = .failed) (hl : (s.port p).leaving = true) (hf : (s.port p).frame = some f)
  (hs : (s.port p).state = .arbitrating ∨ (s.port p).state = .initiating ∨ (s.port p).state = .serving)
include he hl hf hs

/-- A row of a frame that a port may meet: where the port does not meet it, it has no effect while the device works; and where
the port does, the row leaves the port with another state or frame record. -/
theorem endsIfMet_of_inFrame {act : Port → FrameRec → State} {meets : Prop} [Decidable meets]
    {act' leaves leaves' : Port → FrameRec → State} (hleaves : leaves (s.port p) f = if meets then s.leavesFrame p else s)
    (hexec : exec c s = .next (s.inFrame p act' leaves))
    (hworks : exec c (working s) = .next ((working s).inFrame p act leaves'))
    (hno : ¬ meets → act (s.port p) f = working s)
    (hyes : meets → ((act (s.port p) f).port p).state ≠ (s.port p).state ∨ ((act (s.port p) f).port p).frame ≠ some f) :
    EndsIfMet s p c := by
  have hfailed : exec c s = .next (if meets then s.leavesFrame p else s) := by
    rw [hexec, inFrame_leaving he hl hf, hleaves]
    rw [hleaves]
    split <;> exact he
  have hrunning : exec c (working s) = .next ((act (s.port p) f).settle p (working s)) :=
    hworks.trans (congrArg _ (State.inFrame_of_live (s := working s) rfl hf))
  by_cases hm : meets
  · refine ⟨fun hsame => ?_, fun _ => by rw [hfailed, if_pos hm]⟩
    have hsettled : (act (s.port p) f).settle p (working s) = working s := Host.Outcome.next.inj (hrunning.symm.trans hsame)
    have hport : ((act (s.port p) f).settle p (working s)).port p = s.port p := by
      rw [hsettled]
      rfl
    rcases settle_port (s := working s) (t := act (s.port p) f) (p := p) with hkeep | hoff
    · rw [hkeep] at hport
      rcases hyes hm with h | h
      · exact absurd (congrArg Port.state hport) h
      · exact absurd ((congrArg Port.frame hport).trans hf) h
    · rw [hport] at hoff
      rcases hs with hs | hs | hs <;> rw [hs] at hoff <;> cases hoff
  · refine ⟨fun _ => by rw [hfailed, if_neg hm], fun hne => absurd ?_ hne⟩
    rw [hrunning, hno hm, settle_self (s := working s) rfl hs]

theorem endsIfMet_arbitrationLoss (bit : Fin 24) : EndsIfMet s p (.arbitrationLoss p bit) := by
  refine endsIfMet_of_inFrame he hl hf hs (meets := ((s.port p).lostTurn f bit).isSome) rfl rfl rfl (fun hno => ?_)
    fun hyes => .inr ?_
  · simp only [Option.not_isSome_iff_eq_none.1 hno]
  · obtain ⟨r, hr⟩ := Option.isSome_iff_exists.1 hyes
    have hturn : f.turn = some r := by
      unfold Port.lostTurn at hr
      split at hr
      · split at hr
        · exact hr
        · cases hr
      · cases hr
    simp only [hr]
    rw [loseTurn_port_frame, State.setPort_port_self, State.setFrame, State.setPort_port_self]
    intro hsame
    have := congrArg FrameRec.turn (Option.some.inj hsame)
    rw [hturn] at this
    cases this

theorem endsIfMet_clash (bit : Fin 8) : EndsIfMet s p (.clash p bit) := by
  refine endsIfMet_of_inFrame he hl hf hs
    (meets := (s.port p).state = .initiating ∧ s.sentRecessive (s.port p) f bit = true) rfl rfl rfl (fun hno => ?_)
    fun hyes => .inl ?_
  · split
    · next hi _ => exact if_neg fun hsent => hno ⟨hi, hsent⟩
    · rfl
  · obtain ⟨hi, hsent⟩ := hyes
    obtain ⟨r, hr⟩ := turn_of_sentRecessive hi hsent
    simp only [hi, hr, if_pos (show (working s).sentRecessive (s.port p) f bit = true from hsent)]
    rw [attemptOver_port_state]
    nofun

theorem endsIfMet_overridden (bit : Fin 8) : EndsIfMet s p (.overridden p bit) := by
  refine endsIfMet_of_inFrame he hl hf hs
    (meets := (s.port p).state = .serving ∧ s.sentRecessive (s.port p) f bit = true) rfl rfl rfl (fun hno => if_neg hno)
    fun hyes => .inr ?_
  have hown : f.overridden = false := by
    by_contra ho
    have hnone := sentByte_overridden (s := s) hyes.1 (by simpa using ho)
    simp [State.sentRecessive, hnone] at hyes
  rw [if_pos (show (s.port p).state = .serving ∧ (working s).sentRecessive (s.port p) f bit = true from hyes),
    State.setPort_port_self]
  intro hsame
  have := congrArg FrameRec.overridden (Option.some.inj hsame)
  rw [hown] at this
  cases this

theorem endsIfMet_frameSilence (bda : Level) : EndsIfMet s p (.frameSilence p bda) := by
  refine endsIfMet_of_inFrame he hl hf hs (meets := ((s.port p).receiverSilence f).isSome) rfl rfl rfl (fun hno => ?_)
    fun hyes => .inl ?_
  · simp only [Option.not_isSome_iff_eq_none.1 hno]
  · obtain ⟨since, hsince⟩ := Option.isSome_iff_exists.1 hyes
    simp only [hsince]
    rw [receiverBreaks_port_state]
    rcases hs with hs | hs | hs <;> rw [hs] <;> nofun

/-- R42: how the obligation states a row that acts on a port that drives on as while the device works. -/
def ActsAsAtWork (s : State) (p : PortId) (c : Instr) : Prop :=
  ∃ t, exec c (working s) = .next t ∧ exec c s = .next { t with engine := .failed } ∧
    (t.port p).state = (s.port p).state ∧ (t.port p).leaving = true ∧ (t.port p).bckDriver = (s.port p).bckDriver ∧
    ((∀ bit, c ≠ .hold p bit) ∨ (s.port p).state = .arbitrating → (t.port p).bdaDriver = (s.port p).bdaDriver)

omit hf in
/-- A row of a frame that changes a port that drives on, but not its state. -/
theorem actsAsAtWork_of_setPort {y : Port} (hstate : y.state = (s.port p).state)
    (hkeeps : y.leaving = (s.port p).leaving ∧ y.bckDriver = (s.port p).bckDriver)
    (hbda : (∀ bit, c ≠ .hold p bit) ∨ (s.port p).state = .arbitrating → y.bdaDriver = (s.port p).bdaDriver)
    (hworks : exec c (working s) = .next (((working s).setPort p y).settle p (working s)))
    (hfailed : exec c s = .next (s.setPort p y)) : ActsAsAtWork s p c := by
  have hsettle : ((working s).setPort p y).settle p (working s) = (working s).setPort p y := by
    have hport : ¬ (((working s).setPort p y).port p).state = .observing ∧
        ¬ (((working s).setPort p y).port p).state = .idle := by
      rw [State.setPort_port_self, hstate]
      rcases hs with hs | hs | hs <;> rw [hs] <;> exact ⟨nofun, nofun⟩
    have hstop : ((working s).setPort p y).settleStop p (working s) = (working s).setPort p y :=
      if_neg fun h => h.2.2.elim hport.1 hport.2
    rw [State.settle, hstop, settleHalt_of_not_halting (show EngineState.running ≠ .halting by decide)]
  refine ⟨(working s).setPort p y, by rw [hworks, hsettle], ?_, ?_⟩
  · rw [hfailed, ← he]
    rfl
  · rw [State.setPort_port_self]
    exact ⟨hstate, hkeeps.1.trans hl, hkeeps.2, hbda⟩

theorem actsAsAtWork_lineGoesLow (line : Line) (moment : LineMoment) : ActsAsAtWork s p (.lineGoesLow p line moment) := by
  refine actsAsAtWork_of_setPort he hl hs (y := (s.port p).lineInFrame line moment s.timeBase) ?_ ?_ (fun _ => ?_) ?_ ?_
  · cases line <;> cases moment <;> rfl
  · cases line <;> cases moment <;> exact ⟨rfl, rfl⟩
  · cases line <;> cases moment <;> rfl
  · refine congrArg _ ((State.event_of_live (s := working s) rfl).trans (congrArg (State.settle · p (working s)) ?_))
    rcases hs with hs | hs | hs <;> simp only [show ((working s).port p).state = _ from hs] <;> rfl
  · have honFrame : s.onFrame (fun x _ => s.setPort p (x.lineInFrame line moment s.timeBase)) (s.port p) =
        s.setPort p ((s.port p).lineInFrame line moment s.timeBase) := by simp only [State.onFrame, hf]
    exact congrArg _ ((event_leaving he hl (by rw [honFrame]; exact he)).trans honFrame)

omit hs in
/-- R42: an initiator does not wait out a hold. -/
theorem hold_initiating (hi : (s.port p).state = .initiating) (bit : Fin 8) :
    exec (.hold p bit) s = .next (s.leavesFrame p) := by
  refine congrArg _ ((inFrame_leaving he hl hf ?_).trans ?_)
  · rw [if_pos hi]
    exact he
  · exact if_pos hi

theorem actsAsAtWork_hold (hi : (s.port p).state ≠ .initiating) (bit : Fin 8) : ActsAsAtWork s p (.hold p bit) := by
  have hcourse : (s.port p).state = .arbitrating ∨ (s.port p).state = .serving := by tauto
  refine actsAsAtWork_of_setPort he hl hs
    (y := { (s.port p).bckHeld s.timeBase bit (s.bdaInBit p (s.port p) f bit) with
      frame := some { f with bit := bit.val, held := true } }) rfl ⟨rfl, rfl⟩ (fun h => ?_) ?_ ?_
  · rcases h with h | h
    · exact absurd rfl (h bit)
    · exact State.bdaInBit_of_arbitrating h
  · refine congrArg _ ((State.inFrame_of_live (s := working s) rfl hf).trans (congrArg (State.settle · p (working s)) ?_))
    rcases hcourse with hs | hs <;> simp only [show ((working s).port p).state = _ from hs] <;> rfl
  · refine congrArg _ ((inFrame_leaving he hl hf ?_).trans ?_)
    · rcases hcourse with hs | hs <;> simp only [hs] <;> exact he
    · rcases hcourse with hs | hs <;> simp only [hs] <;> rfl

end

/-- Settles O11: the entry by the port, the faults that lead to it, and the rows at a port that drives on. -/
theorem entryIntoFailed : Obligations.EntryIntoFailed := by
  refine ⟨fun s cause => ?entry, fun s hl => ?faults, fun s p he => ?port⟩
  case entry => exact ⟨rfl, rfl, rfl, rfl, rfl, fun p => ⟨fail_port_of_drivesOn, fail_port_of_not_drivesOn⟩⟩
  case faults =>
    exact ⟨adminSlotReadEnd_fault hl, fun c e rest w => completionWriteEnd_fault hl,
      fun r e rest w => receiveWriteEnd_fault hl, fun v before m after => messageWriteEnd_fault hl⟩
  case port =>
    intro x leaves working
    refine ⟨fun hl c hc => exec_not_leaving he hl hc, fun f hl hf hs => ⟨fun c => ?ends, fun c hc => ?mayEnd, fun hi bit => ?hold,
      fun c hc hhold => ?within, fun c hc hends hmay hwithin => exec_other he hl hc hends hmay hwithin⟩⟩
    case ends => exact exec_endsPart he hl hf
    case mayEnd =>
      cases c <;> cases hc
      case arbitrationLoss => exact endsIfMet_arbitrationLoss he hl hf hs _
      case overridden => exact endsIfMet_overridden he hl hf hs _
      case clash => exact endsIfMet_clash he hl hf hs _
      case frameSilence => exact endsIfMet_frameSilence he hl hf hs _
    case hold => exact hold_initiating he hl hf hi bit
    case within =>
      cases c <;> cases hc
      case lineGoesLow => exact actsAsAtWork_lineGoesLow he hl hf hs _ _
      case hold => exact actsAsAtWork_hold he hl hf hs (fun hi => hhold hi _ rfl) _

end Sys2Proof.Machine
end

section
/-!
PROOFS. What FAILED keeps until a reset (O12).
-/
namespace Sys2Proof.Machine
open Sys2Proof.Safety

variable {s t : State} {p : PortId} {f : FrameRec} {c : Instr}

/-- R42: what a port that drives on may still change: its line measures, its driver of BDA and its frame record. -/
def GoesOn (x y : Port) : Prop :=
  y = { x with
    bckLowSince := y.bckLowSince, bdaLowSince := y.bdaLowSince, silenceSince := y.silenceSince,
    bdaDriver := y.bdaDriver, frame := y.frame }

theorem goesOn_lineInFrame {x : Port} {line : Line} {moment : LineMoment} {now : Time} :
    GoesOn x (x.lineInFrame line moment now) := by cases line <;> cases moment <;> rfl

theorem goesOn_held {x : Port} {now : Time} {bit : Nat} {bda : Driver} {frame : Option FrameRec} :
    GoesOn x { x.bckHeld now bit bda with frame := frame } := rfl

section
variable (he : s.engine = .failed) (hl : (s.port p).leaving = true)
include he hl

theorem exec_without_frame (hf : (s.port p).frame = none) (hc : happensAt c = some p) :
    exec c s = .next s ∨ exec c s = .next (s.leavesFrame p) := by
  cases c <;> cases hc
  case closing | stuckCondition => exact .inr (congrArg _ (event_leaving he hl he))
  case opening | idleGap | recoveryFailed | answerLimitExpiry | clockPulse | holdCeilingPassed =>
    exact .inl (congrArg _ (event_leaving he hl he))
  case lineGoesLow =>
    refine .inl (congrArg Host.Outcome.next ?_)
    have honFrame {leaves : Port → FrameRec → State} : s.onFrame leaves (s.port p) = s := by simp only [State.onFrame, hf]
    exact (event_leaving he hl (by rw [honFrame]; exact he)).trans honFrame
  all_goals exact .inl (congrArg _ (inFrame_without_frame he hf))

theorem exec_mayEndPart (hf : (s.port p).frame = some f) (hc : mayEndPart c = some p) :
    exec c s = .next s ∨ exec c s = .next (s.leavesFrame p) := by
  have hrow {act : Port → FrameRec → State} {meets : Prop} [Decidable meets] {leaves : Port → FrameRec → State}
      (hleaves : leaves (s.port p) f = if meets then s.leavesFrame p else s) :
      s.inFrame p act leaves = s ∨ s.inFrame p act leaves = s.leavesFrame p := by
    rw [inFrame_leaving he hl hf (by rw [hleaves]; split <;> exact he), hleaves]
    split
    · exact .inr rfl
    · exact .inl rfl
  cases c <;> cases hc
  case arbitrationLoss =>
    exact (hrow (meets := ((s.port p).lostTurn f _).isSome) rfl).imp (congrArg _) (congrArg _)
  case frameSilence =>
    exact (hrow (meets := ((s.port p).receiverSilence f).isSome) rfl).imp (congrArg _) (congrArg _)
  case clash =>
    exact (hrow (meets := (s.port p).state = .initiating ∧ s.sentRecessive (s.port p) f _ = true) rfl).imp (congrArg _)
      (congrArg _)
  case overridden =>
    exact (hrow (meets := (s.port p).state = .serving ∧ s.sentRecessive (s.port p) f _ = true) rfl).imp (congrArg _)
      (congrArg _)

theorem exec_withinPart (hf : (s.port p).frame = some f) (hc : withinPart c = some p) :
    exec c s = .next s ∨ exec c s = .next (s.leavesFrame p) ∨
      ∃ y, GoesOn (s.port p) y ∧ exec c s = .next (s.setPort p y) := by
  cases c <;> cases hc
  case lineGoesLow line moment =>
    refine .inr (.inr ⟨_, goesOn_lineInFrame (line := line) (moment := moment) (now := s.timeBase),
      congrArg Host.Outcome.next ?_⟩)
    have honFrame : s.onFrame (fun x _ => s.setPort p (x.lineInFrame line moment s.timeBase)) (s.port p) =
        s.setPort p ((s.port p).lineInFrame line moment s.timeBase) := by simp only [State.onFrame, hf]
    exact (event_leaving he hl (by rw [honFrame]; exact he)).trans honFrame
  case hold bit =>
    by_cases hi : (s.port p).state = .initiating
    · exact .inr (.inl (hold_initiating he hl hf hi bit))
    · by_cases hcourse : (s.port p).state = .arbitrating ∨ (s.port p).state = .observing ∨ (s.port p).state = .serving
      · refine .inr (.inr ⟨{ (s.port p).bckHeld s.timeBase bit (s.bdaInBit p (s.port p) f bit) with
            frame := some { f with bit := bit.val, held := true } }, goesOn_held,
          congrArg _ ((inFrame_leaving he hl hf ?_).trans ?_)⟩)
        · rcases hcourse with hs | hs | hs <;> simp only [hs] <;> exact he
        · rcases hcourse with hs | hs | hs <;> simp only [hs] <;> rfl
      · have hstays : (s.port p).state = .off ∨ (s.port p).state = .idle ∨ (s.port p).state = .holding ∨
            (s.port p).state = .recovering ∨ (s.port p).state = .faulted := by
          cases hs : (s.port p).state <;> simp_all
        refine .inl (congrArg _ ((inFrame_leaving he hl hf ?_).trans ?_))
        · rcases hstays with hs | hs | hs | hs | hs <;> simp only [hs] <;> exact he
        · rcases hstays with hs | hs | hs | hs | hs <;> simp only [hs] <;> rfl

/-- R42, R181: a happening at a port that is leaving has no effect, or takes it OFF, or goes on within its byte or slot. -/
theorem exec_leaving (hc : happensAt c = some p) :
    exec c s = .next s ∨ exec c s = .next (s.leavesFrame p) ∨
      ∃ y, GoesOn (s.port p) y ∧ exec c s = .next (s.setPort p y) := by
  cases hf : (s.port p).frame with
  | none => exact (exec_without_frame he hl hf hc).imp_right .inl
  | some f =>
    have hpart : endsPart c = some p ∨ mayEndPart c = some p ∨ withinPart c = some p ∨
        (endsPart c = none ∧ mayEndPart c = none ∧ withinPart c = none) := by
      cases c <;> cases hc <;> simp [endsPart, mayEndPart, withinPart]
    rcases hpart with h | h | h | ⟨hends, hmay, hwithin⟩
    · exact .inr (.inl (exec_endsPart he hl hf h))
    · exact (exec_mayEndPart he hl hf h).imp_right .inl
    · exact exec_withinPart he hl hf h
    · exact .inl (exec_other he hl hc hends hmay hwithin)

end

/-- Settles O12: the rows of FAILED, and the cause as an invariant of every step. -/
theorem failedStaysFailed : Obligations.FailedStaysFailed := by
  refine ⟨fun c s t he hc ht => ?failed, fun s t hs ht => step_causeMatches hs ht⟩
  case failed =>
    cases hp : happensAt c with
    | none =>
      obtain ⟨_, _, hexec⟩ := exec_elsewhere_of_failed he hc hp
      cases hexec.symm.trans ht
      exact ⟨he, rfl, rfl, rfl, rfl, rfl, rfl, rfl, rfl, rfl, rfl, fun p => .inl rfl⟩
    | some p =>
      cases hl : (s.port p).leaving with
      | false =>
        cases (exec_not_leaving he hl hp).symm.trans ht
        exact ⟨he, rfl, rfl, rfl, rfl, rfl, rfl, rfl, rfl, rfl, rfl, fun p => .inl rfl⟩
      | true =>
        rcases exec_leaving he hl hp with h | h | ⟨y, hy, h⟩ <;> cases h.symm.trans ht
        · exact ⟨he, rfl, rfl, rfl, rfl, rfl, rfl, rfl, rfl, rfl, rfl, fun p => .inl rfl⟩
        · refine ⟨he, rfl, rfl, rfl, rfl, rfl, rfl, rfl, rfl, rfl, rfl, fun q => ?_⟩
          by_cases hq : q = p
          · subst hq
            refine .inr ⟨hl, .inl ?_⟩
            rw [leavesFrame_eq_offAfter, State.setSnapshot_port, State.setPort_port_self]
          · refine .inl ?_
            rw [leavesFrame_eq_offAfter, State.setSnapshot_port, State.setPort_port_ne _ _ _ _ hq]
        · refine ⟨he, rfl, rfl, rfl, rfl, rfl, rfl, rfl, rfl, rfl, rfl, fun q => ?_⟩
          by_cases hq : q = p
          · subst hq
            rw [State.setPort_port_self]
            exact .inr ⟨hl, .inr hy⟩
          · exact .inl (State.setPort_port_ne _ _ _ _ hq)

end Sys2Proof.Machine
end

section
/-!
PROOFS. Two parts of the state that a happening at a port hardly looks at: in which of the engine states in which the device
works it is (R60, R174), and whether a stop is pending on the port (R35). `State.under` gives them other values. A lemma
for each access and each shared operation says that it works in the same way whatever the two are, and leaves them as they
are: the layer for O4 and for the stops of O30.
-/
namespace Sys2Proof.Machine
open Sys2Proof.Safety

/-- The same port, with a stop pending on it as `g` makes of what is. -/
def Port.withStop (x : Port) (g : Bool → Bool) : Port := { x with stopPending := g x.stopPending }

/-- The same device, in the engine state `e` and with a stop pending on the port `p` as `g` makes of what is. -/
def State.under (s : State) (e : EngineState) (p : PortId) (g : Bool → Bool) : State :=
  { s.setPort p ((s.port p).withStop g) with engine := e }

section
variable {x : Port} {g : Bool → Bool}

/-! ### What a port is read by -/

@[simp] theorem Port.withStop_state : (x.withStop g).state = x.state := (rfl)
@[simp] theorem Port.withStop_config : (x.withStop g).config = x.config := (rfl)
@[simp] theorem Port.withStop_stopPending : (x.withStop g).stopPending = g x.stopPending := (rfl)
@[simp] theorem Port.withStop_bdaDriver : (x.withStop g).bdaDriver = x.bdaDriver := (rfl)
@[simp] theorem Port.withStop_idleSince : (x.withStop g).idleSince = x.idleSince := (rfl)
@[simp] theorem Port.withStop_idleFull : (x.withStop g).idleFull = x.idleFull := (rfl)
@[simp] theorem Port.withStop_bckLowSince : (x.withStop g).bckLowSince = x.bckLowSince := (rfl)
@[simp] theorem Port.withStop_bdaLowSince : (x.withStop g).bdaLowSince = x.bdaLowSince := (rfl)
@[simp] theorem Port.withStop_silenceSince : (x.withStop g).silenceSince = x.silenceSince := (rfl)
@[simp] theorem Port.withStop_frame : (x.withStop g).frame = x.frame := (rfl)
@[simp] theorem Port.withStop_window : (x.withStop g).window = x.window := (rfl)
@[simp] theorem Port.withStop_nextToken : (x.withStop g).nextToken = x.nextToken := (rfl)
@[simp] theorem Port.withStop_recovery : (x.withStop g).recovery = x.recovery := (rfl)
@[simp] theorem Port.withStop_endBit : (x.withStop g).endBit = x.endBit := (rfl)
@[simp] theorem Port.withStop_halfBit : (x.withStop g).halfBit = x.halfBit := (rfl)
@[simp] theorem Port.withStop_quarterBit : (x.withStop g).quarterBit = x.quarterBit := (rfl)
@[simp] theorem Port.withStop_bdaLowAt (now : Time) (bit : Nat) : (x.withStop g).bdaLowAt now bit = x.bdaLowAt now bit := (rfl)
@[simp] theorem Port.withStop_lowSince (line : Line) : (x.withStop g).lowSince line = x.lowSince line := (rfl)
@[simp] theorem Port.withStop_lostTurn (f : FrameRec) (bit : Fin 24) : (x.withStop g).lostTurn f bit = x.lostTurn f bit := (rfl)
@[simp] theorem Port.withStop_receiverSilence (f : FrameRec) :
    (x.withStop g).receiverSilence f = x.receiverSilence f := (rfl)
@[simp] theorem Port.withStop_recoveryLimit (v : Recovery) (line : Line) (now : Time) :
    (x.withStop g).recoveryLimit v line now = x.recoveryLimit v line now := (rfl)
@[simp] theorem Port.withStop_service : (x.withStop g).service = x.service := (rfl)

/-! ### What a port becomes -/

@[simp] theorem Port.withStop_toIdle (idle : Option Time) : (x.withStop g).toIdle idle = (x.toIdle idle).withStop g := rfl
@[simp] theorem Port.withStop_endFrame (now : Time) (low : Option Time) :
    (x.withStop g).endFrame now low = (x.endFrame now low).withStop g := rfl
@[simp] theorem Port.withStop_seeOpening (now : Time) : (x.withStop g).seeOpening now = (x.seeOpening now).withStop g := rfl
@[simp] theorem Port.withStop_toObserving (f : FrameRec) : (x.withStop g).toObserving f = (x.toObserving f).withStop g := rfl
@[simp] theorem Port.withStop_clocked (now : Time) (last : Level) (bit : Nat) :
    (x.withStop g).clocked now last bit = (x.clocked now last bit).withStop g := rfl
@[simp] theorem Port.withStop_bckHeld (now : Time) (bit : Nat) (bda : Driver) :
    (x.withStop g).bckHeld now bit bda = (x.bckHeld now bit bda).withStop g := rfl
@[simp] theorem Port.withStop_seesClosing (now : Time) : (x.withStop g).seesClosing now = (x.seesClosing now).withStop g := rfl
@[simp] theorem Port.withStop_toFaulted : (x.withStop g).toFaulted = x.toFaulted.withStop g := rfl
@[simp] theorem Port.withStop_endHold (now : Time) (bck : Level) :
    (x.withStop g).endHold now bck = (x.endHold now bck).withStop g := rfl
@[simp] theorem Port.withStop_setService (v : ServiceRec) : (x.withStop g).setService v = (x.setService v).withStop g := rfl

@[simp] theorem Port.withStop_closesInRecovery (now : Time) :
    (x.withStop g).closesInRecovery now = (x.closesInRecovery now).withStop g := by
  unfold Port.closesInRecovery
  rw [Port.withStop_recovery]
  split
  · split <;> rfl
  · rfl

@[simp] theorem Port.withStop_lineFalls (line : Line) (now : Time) :
    (x.withStop g).lineFalls line now = (x.lineFalls line now).withStop g := by cases line <;> rfl

@[simp] theorem Port.withStop_lineRises (line : Line) (now : Time) :
    (x.withStop g).lineRises line now = (x.lineRises line now).withStop g := by
  have hc : (x.withStop g).countsGap = x.countsGap := (rfl)
  cases line <;>
  · simp only [Port.lineRises, hc, Port.withStop_idleSince, Port.withStop_bckLowSince, Port.withStop_bdaLowSince]
    split <;> rfl

@[simp] theorem Port.withStop_lineInFrame (line : Line) (moment : LineMoment) (now : Time) :
    (x.withStop g).lineInFrame line moment now = (x.lineInFrame line moment now).withStop g := by
  cases line <;> cases moment <;> rfl

@[simp] theorem Port.withStop_bckRisesInRecovery (now : Time) :
    (x.withStop g).bckRisesInRecovery now = (x.bckRisesInRecovery now).withStop g := by
  unfold Port.bckRisesInRecovery
  rw [Port.withStop_state, Port.withStop_recovery]
  split
  · split <;> rfl
  · rfl

@[simp] theorem Port.withStop_failsBy (v : Recovery) (line : Line) (now : Time) :
    (x.withStop g).failsBy v line now = (x.failsBy v line now).withStop g := by
  cases line <;>
  · unfold Port.failsBy
    dsimp only
    split <;> rfl

end

variable (s : State) {e : EngineState} {p : PortId} {g : Bool → Bool}

/-! ### What the state is read by -/

@[simp] theorem State.under_engine : (s.under e p g).engine = e := (rfl)
@[simp] theorem State.under_timeBase : (s.under e p g).timeBase = s.timeBase := (rfl)
@[simp] theorem State.under_admin : (s.under e p g).admin = s.admin := (rfl)
@[simp] theorem State.under_health : (s.under e p g).health = s.health := (rfl)
@[simp] theorem State.under_adminTag : (s.under e p g).adminTag = s.adminTag := (rfl)
@[simp] theorem State.under_sub (r : SubId) : (s.under e p g).sub r = s.sub r := (rfl)
@[simp] theorem State.under_cpl (c : CplId) : (s.under e p g).cpl c = s.cpl c := (rfl)
@[simp] theorem State.under_rcv (k : RcvId) : (s.under e p g).rcv k = s.rcv k := (rfl)
@[simp] theorem State.under_reply (i : SlotId) : (s.under e p g).reply i = s.reply i := (rfl)
@[simp] theorem State.under_stagedOf (r : SubId) : (s.under e p g).stagedOf r = s.stagedOf r := (rfl)
@[simp] theorem State.under_execOf (r : SubId) : (s.under e p g).execOf r = s.execOf r := (rfl)
@[simp] theorem State.under_abortPending (r : SubId) : (s.under e p g).abortPending r = s.abortPending r := (rfl)
@[simp] theorem State.under_healthEntry (q : PortId) (st : Station) :
    (s.under e p g).healthEntry q st = s.healthEntry q st := (rfl)
@[simp] theorem State.under_inState (q : PortId) (r : SubId) (y : ExecState) :
    (s.under e p g).inState q r y = s.inState q r y := (rfl)
@[simp] theorem State.under_candidates (q : PortId) (kind : FrameKind) (source : Station) :
    (s.under e p g).candidates q kind source = s.candidates q kind source := (rfl)
@[simp] theorem State.under_mustClose (f : FrameRec) : (s.under e p g).mustClose f = s.mustClose f := (rfl)

@[simp] theorem State.under_port : (s.under e p g).port p = (s.port p).withStop g := by
  simp [State.under, State.port, State.setPort]

theorem State.under_port_ne {q : PortId} (h : q ≠ p) : (s.under e p g).port q = s.port q :=
  State.setPort_port_ne _ _ _ _ h

@[simp] theorem State.under_port_config (q : PortId) : ((s.under e p g).port q).config = (s.port q).config := by
  by_cases h : q = p
  · subst h
    rw [State.under_port]
    rfl
  · rw [State.under_port_ne _ h]

@[simp] theorem State.under_sentByte (x : Port) (f : FrameRec) :
    (s.under e p g).sentByte (x.withStop g) f = s.sentByte x f := (rfl)
@[simp] theorem State.under_sentRecessive (x : Port) (f : FrameRec) (bit : Fin 8) :
    (s.under e p g).sentRecessive (x.withStop g) f bit = s.sentRecessive x f bit := (rfl)

@[simp] theorem State.under_turnaroundReply (v : ServiceRec) :
    (s.under e p g).turnaroundReply p v = s.turnaroundReply p v := by
  unfold State.turnaroundReply
  rw [State.under_port]
  rfl

@[simp] theorem State.under_bdaInBit (x : Port) (f : FrameRec) (bit : Fin 8) :
    (s.under e p g).bdaInBit p (x.withStop g) f bit = s.bdaInBit p x f bit := by
  unfold State.bdaInBit
  simp only [Port.withStop_state, Port.withStop_bdaDriver, State.under_turnaroundReply, State.under_sentByte]

/-! ### Updates -/

@[simp] theorem State.under_setTimeBase (x : Time) :
    { s.under e p g with timeBase := x } = { s with timeBase := x }.under e p g := rfl
@[simp] theorem State.under_setAdmin (x : AdminPhase) :
    { s.under e p g with admin := x } = { s with admin := x }.under e p g := rfl
@[simp] theorem State.under_setHealth (x : List HealthEntry) :
    { s.under e p g with health := x } = { s with health := x }.under e p g := rfl

/-- A choice between two states whose condition reads neither of the two parts. -/
@[simp] theorem State.ite_under {c : Prop} {_ : Decidable c} (t : State) :
    (if c then s.under e p g else t.under e p g) = (if c then s else t).under e p g :=
  (apply_ite (fun u : State => u.under e p g) c s t).symm

@[simp] theorem State.under_setSub (r : SubId) (k : SubRing) :
    (s.under e p g).setSub r k = (s.setSub r k).under e p g := rfl
@[simp] theorem State.under_setCpl (c : CplId) (k : CplRing) :
    (s.under e p g).setCpl c k = (s.setCpl c k).under e p g := rfl
@[simp] theorem State.under_setRcv (r : RcvId) (k : RcvRing) :
    (s.under e p g).setRcv r k = (s.setRcv r k).under e p g := rfl
@[simp] theorem State.under_setReply (i : SlotId) (k : ReplySlot) :
    (s.under e p g).setReply i k = (s.setReply i k).under e p g := rfl
@[simp] theorem State.under_setSnapshot (q : PortId) (x : Option Snapshot) :
    (s.under e p g).setSnapshot q x = (s.setSnapshot q x).under e p g := rfl
@[simp] theorem State.under_setExec (r : SubId) (x : StagedXfer) (y : ExecRec) :
    (s.under e p g).setExec r x y = (s.setExec r x y).under e p g := rfl
@[simp] theorem State.under_reserve (r : RcvId) : (s.under e p g).reserve r = (s.reserve r).under e p g := rfl
@[simp] theorem State.under_countLost (r : RcvId) : (s.under e p g).countLost r = (s.countLost r).under e p g := rfl

/-- The port is given a value that is made in the same way with and without the stop. -/
theorem State.under_setPort {x y : Port} (h : y = x.withStop g) :
    (s.under e p g).setPort p y = (s.setPort p x).under e p g := by
  subst h
  simp [State.under, State.setPort, State.port]

@[simp] theorem State.under_count (q : PortId) (c : Counter) : (s.under e p g).count q c = (s.count q c).under e p g := by
  by_cases h : q = p
  · subst h
    unfold State.count
    rw [State.under_port]
    exact s.under_setPort rfl
  · unfold State.count
    rw [State.under_port_ne _ h, State.under, State.under, State.setPort_port_ne _ _ _ _ (Ne.symm h)]
    simp only [State.setPort]
    rw [Vector.set_comm]
    simpa [Fin.ext_iff] using Ne.symm h

@[simp] theorem State.under_setFrame (f : FrameRec) (last : Level) (bit : Nat) :
    (s.under e p g).setFrame p f last bit = (s.setFrame p f last bit).under e p g := by
  unfold State.setFrame
  rw [State.under_port]
  exact s.under_setPort rfl

theorem State.under_setPort_setFrame {x y : Port} (h : y = x.withStop g) (f : FrameRec) (last : Level) :
    ((s.under e p g).setPort p y).setFrame p f last = ((s.setPort p x).setFrame p f last).under e p g := by
  rw [s.under_setPort h, State.under_port, Port.withStop_endBit, State.under_setFrame]

@[simp] theorem State.under_observeFrame (f : FrameRec) (last : Level) (bit : Nat) :
    (s.under e p g).observeFrame p f last bit = (s.observeFrame p f last bit).under e p g := by
  unfold State.observeFrame
  rw [State.under_port]
  exact s.under_setPort rfl

@[simp] theorem State.under_driveBda (d : Driver) : (s.under e p g).driveBda p d = (s.driveBda p d).under e p g := by
  unfold State.driveBda
  rw [State.under_port]
  exact s.under_setPort rfl

@[simp] theorem State.under_byteSent (f : FrameRec) (byte : Byte) :
    (s.under e p g).byteSent p f byte = (s.byteSent p f byte).under e p g := by
  simp only [State.byteSent, State.under_port, Port.withStop_endBit, State.under_setFrame, State.under_driveBda]

/-! ### Completions and the health table (R134, R71 to R74) -/

@[simp] theorem State.under_handOver (r : SubId) (d : Done) :
    (s.under e p g).handOver r d = (s.handOver r d).under e p g := by
  unfold State.handOver
  simp only [State.under_sub, State.under_setSub, State.under_cpl, State.under_setCpl, State.ite_under]
  split <;> rfl

@[simp] theorem State.under_finishAdmin (status : Status) (result : Word32) :
    (s.under e p g).finishAdmin status result = (s.finishAdmin status result).under e p g := by
  simp only [State.finishAdmin, State.under_adminTag, State.under_handOver, ↓State.under_setAdmin]

@[simp] theorem State.under_complete (r : SubId) (d : Done) :
    (s.under e p g).complete r d = (s.complete r d).under e p g := by
  unfold State.complete
  simp only [State.under_handOver, State.under_admin, State.under_finishAdmin, State.ite_under]
  split <;> rfl

@[simp] theorem State.under_targetFailure (q : PortId) (st : Station) :
    (s.under e p g).targetFailure q st = (s.targetFailure q st).under e p g := by
  unfold State.targetFailure
  simp only [State.under_healthEntry, ↓State.under_setHealth, State.under_health, State.under_port_config, State.under_count,
    State.ite_under]
  split <;> rfl

@[simp] theorem State.under_targetSuccess (q : PortId) (st : Station) :
    (s.under e p g).targetSuccess q st = (s.targetSuccess q st).under e p g := by
  unfold State.targetSuccess
  simp only [State.under_healthEntry, ↓State.under_setHealth, State.under_health]
  split <;> rfl

@[simp] theorem State.under_tellHealth (q : PortId) (d : Desc) (status : Status) :
    (s.under e p g).tellHealth q d status = (s.tellHealth q d status).under e p g := by
  unfold State.tellHealth
  simp only [State.under_port_config, State.under_targetFailure, State.under_targetSuccess]
  split
  · split <;> rfl
  · rfl

@[simp] theorem State.under_completeExec (r : SubId) (status : Status) (bytes : Nat) :
    (s.under e p g).completeExec r status bytes = (s.completeExec r status bytes).under e p g := by
  unfold State.completeExec
  simp only [State.under_execOf, State.under_sub, State.under_tellHealth, State.under_complete]
  split <;> rfl

@[simp] theorem State.under_completeAnswer (r : SubId) (status : Status) (bytes : Nat) :
    (s.under e p g).completeAnswer r status bytes = (s.completeAnswer r status bytes).under e p g := by
  unfold State.completeAnswer
  simp only [State.under_stagedOf, State.under_complete]
  split <;> rfl

@[simp] theorem State.under_healthCheck (r : SubId) (q : PortId) (x : StagedXfer) (y : ExecRec) :
    (s.under e p g).healthCheck r q x y = (s.healthCheck r q x y).under e p g := by
  unfold State.healthCheck
  simp only [State.under_setExec, State.under_healthEntry, State.under_completeExec, State.ite_under]
  split
  · rfl
  · split <;> rfl

@[simp] theorem State.under_recheckHeld (q : PortId) :
    (s.under e p g).recheckHeld q = (s.recheckHeld q).under e p g := by
  refine List.foldl_hom (fun t : State => t.under e p g) fun t r => ?_
  simp only [State.under_inState, State.under_execOf, State.under_healthCheck]
  split
  · split <;> rfl
  · rfl

@[simp] theorem State.under_portDown (q : PortId) : (s.under e p g).portDown q = (s.portDown q).under e p g := by
  refine List.foldl_hom (fun t : State => t.under e p g) fun t r => ?_
  simp only [State.under_inState, State.under_execOf, State.under_completeExec]
  split
  · split <;> rfl
  · rfl

/-! ### Receive rings and records (R106, R115, R158, R159) -/

@[simp] theorem State.under_release (res : Option RcvId) :
    (s.under e p g).release res = (s.release res).under e p g := by
  unfold State.release
  split <;> rfl

@[simp] theorem State.under_handRecord (r : RcvId) (y : RcvEntry) :
    (s.under e p g).handRecord r y = (s.handRecord r y).under e p g := by
  simp only [State.handRecord, State.under_rcv, State.under_setRcv, State.ite_under]

@[simp] theorem State.under_claimAtPosting (r : RcvId) (y : RcvEntry) :
    (s.under e p g).claimAtPosting r y = (s.claimAtPosting r y).under e p g := by
  unfold State.claimAtPosting
  simp only [State.under_rcv, State.under_setRcv, State.under_countLost]
  split <;> rfl

@[simp] theorem State.under_slotNote (q : PortId) (kind : RecordKind) (h : Candidate) (f : FrameRec) (length : Nat) :
    (s.under e p g).slotNote q kind h f length = (s.slotNote q kind h f length).under e p g := by
  unfold State.slotNote
  simp only [State.under_timeBase, State.under_claimAtPosting]
  split <;> rfl

@[simp] theorem State.under_queryClosed (q : PortId) (y : QueryDetails) (reason : CloseReason) :
    (s.under e p g).queryClosed q y reason = (s.queryClosed q y reason).under e p g := by
  simp only [State.queryClosed, State.under_timeBase, State.under_claimAtPosting]

/-! ### Ends of turns and attempts (R52 to R57) -/

@[simp] theorem State.under_returnTurn (r : SubId) : (s.under e p g).returnTurn r = (s.returnTurn r).under e p g := by
  unfold State.returnTurn
  simp only [State.under_execOf, State.under_abortPending, State.under_completeExec, State.under_setExec, State.ite_under]
  split <;> rfl

@[simp] theorem State.under_loseTurn (r : SubId) (patience : Nat) :
    (s.under e p g).loseTurn r patience = (s.loseTurn r patience).under e p g := by
  unfold State.loseTurn
  simp only [State.under_execOf, State.under_abortPending, State.under_setExec, State.under_completeExec, State.ite_under]
  split <;> rfl

@[simp] theorem State.under_endAttempt (r : SubId) (got : Option AttemptResult) (moved : Nat) :
    (s.under e p g).endAttempt r got moved = (s.endAttempt r got moved).under e p g := by
  unfold State.endAttempt
  simp only [State.under_execOf, State.under_setExec, State.under_completeExec, State.under_abortPending, State.ite_under]
  split <;> rfl

@[simp] theorem State.under_countFailed (q : PortId) (r : SubId) (got : Option AttemptResult) :
    (s.under e p g).countFailed q r got = (s.countFailed q r got).under e p g := by
  simp only [State.countFailed, State.under_abortPending, State.under_count, State.ite_under]

@[simp] theorem State.under_stickTurn (r : SubId) : (s.under e p g).stickTurn r = (s.stickTurn r).under e p g := by
  unfold State.stickTurn
  simp only [State.under_execOf, State.under_completeExec]
  split <;> rfl

theorem State.under_attemptOver {x y : Port} (h : y = x.withStop g) (r : SubId) (got : Option AttemptResult) (moved : Nat) :
    (s.under e p g).attemptOver p y r got moved = (s.attemptOver p x r got moved).under e p g := by
  rw [State.attemptOver, s.under_setPort h, State.under_countFailed, State.under_endAttempt, State.attemptOver]

/-! ### Ends of service (R95 to R97) -/

/-- R114, R118: the answer window of the port closes. -/
@[simp] theorem State.under_closeWindow :
    (s.under e p g).setPort p { (s.port p).withStop g with window := .none } =
      (s.setPort p { s.port p with window := .none }).under e p g := s.under_setPort rfl

@[simp] theorem State.under_dropService (f : FrameRec) (reason : CloseReason) :
    (s.under e p g).dropService p f reason = (s.dropService p f reason).under e p g := by
  unfold State.dropService
  simp only [State.under_release, State.under_port, Port.withStop_window, State.under_closeWindow, State.under_completeAnswer,
    State.under_queryClosed]
  split <;> rfl

@[simp] theorem State.under_deliver (f : FrameRec) (v : ServiceRec) :
    (s.under e p g).deliver p f v = (s.deliver p f v).under e p g := by
  unfold State.deliver
  simp only [State.under_handRecord, State.under_rcv, State.under_countLost, State.ite_under, State.under_reply,
    State.under_setReply, State.under_slotNote, State.under_port, Port.withStop_window, State.under_closeWindow,
    State.under_abortPending, State.under_completeAnswer]
  split
  · split <;> rfl
  · rfl
  · split <;> rfl
  · rfl

@[simp] theorem State.under_endEarly (f : FrameRec) : (s.under e p g).endEarly p f = (s.endEarly p f).under e p g := by
  unfold State.endEarly
  simp only [State.under_port, Port.withStop_window, State.under_closeWindow, State.under_completeAnswer,
    State.under_dropService, State.ite_under]
  split <;> rfl

/-! ### Recovery (R36 to R39) -/

@[simp] theorem State.under_endRecover (q : PortId) (status : Status) :
    (s.under e p g).endRecover q status = (s.endRecover q status).under e p g := by
  simp only [State.endRecover, State.under_admin, State.under_finishAdmin, State.ite_under]

theorem State.under_recovered {x y : Port} (h : y = x.withStop g) :
    (s.under e p g).recovered p y = (s.recovered p x).under e p g := by
  rw [State.recovered, s.under_setPort h, State.under_endRecover, State.under_recheckHeld, State.recovered]

theorem State.under_recoveryFails {x y : Port} (h : y = x.withStop g) :
    (s.under e p g).recoveryFails p y = (s.recoveryFails p x).under e p g := by
  rw [State.recoveryFails, h, Port.withStop_toFaulted, s.under_setPort rfl, State.under_endRecover, State.under_portDown,
    State.recoveryFails]

@[simp] theorem State.under_handOverStuck (x : Port) :
    (s.under e p g).handOverStuck p (x.withStop g) = (s.handOverStuck p x).under e p g := by
  unfold State.handOverStuck
  simp only [Port.withStop_frame, Port.withStop_state, State.under_stickTurn, State.under_endAttempt, State.under_dropService]
  split
  · split <;> rfl
  · rfl

/-! ### The target side of a frame (chapters 2, 5 and 6) -/

/-- R82: a port begins to serve. -/
theorem State.under_serve {x : Port} (f : FrameRec) (last : Level) :
    ((s.under e p g).setPort p { x.withStop g with state := .serving }).setFrame p f last =
      ((s.setPort p { x with state := .serving }).setFrame p f last).under e p g := by
  refine State.under_setPort_setFrame s ?_ ..
  rfl

/-- R9, R26: a port goes on as the initiator. -/
theorem State.under_initiate {x : Port} (d : Driver) (f : FrameRec) (last : Level) :
    ((s.under e p g).setPort p { x.withStop g with state := .initiating, bdaDriver := d }).setFrame p f last =
      ((s.setPort p { x with state := .initiating, bdaDriver := d }).setFrame p f last).under e p g := by
  refine State.under_setPort_setFrame s ?_ ..
  rfl

/-- R82: a port judges a header in the same way where a stop is pending on it as before. -/
theorem State.under_receiverJudges {x : Port} (hx : g x.stopPending = x.stopPending) (f : FrameRec) (h : Header) :
    (s.under e p g).receiverJudges p (x.withStop g) f h = (s.receiverJudges p x f h).under e p g := by
  unfold State.receiverJudges
  simp only [State.under_serve]
  simp only [State.under_port, Port.withStop_endBit, State.under_observeFrame, Port.withStop_stopPending, hx,
    Port.withStop_config, State.under_candidates]
  split
  · rfl
  · split
    · rfl
    · split <;> rfl
    · rfl
    · rfl

@[simp] theorem State.under_giveVerdict (f : FrameRec) (v : ServiceRec) (y : HeaderVerdict) :
    (s.under e p g).giveVerdict p f v y = (s.giveVerdict p f v y).under e p g := by
  simp only [State.giveVerdict, State.under_port, Port.withStop_endBit, State.under_setFrame, State.under_count,
    State.ite_under]

@[simp] theorem State.under_deliverVerdict (f : FrameRec) (v : ServiceRec) (h : Candidate) :
    (s.under e p g).deliverVerdict p f v h = (s.deliverVerdict p f v h).under e p g := by
  unfold State.deliverVerdict
  simp only [State.under_rcv, State.under_reserve, State.under_giveVerdict]
  split
  · rfl
  · split <;> rfl
  · rfl

@[simp] theorem State.under_replySlotVerdict (f : FrameRec) (v : ServiceRec) (h : Candidate) :
    (s.under e p g).replySlotVerdict p f v h = (s.replySlotVerdict p f v h).under e p g := by
  simp only [State.replySlotVerdict, State.under_reply, State.under_setSnapshot, State.under_setReply, State.under_slotNote,
    State.ite_under, State.under_giveVerdict]

@[simp] theorem State.under_deferVerdict (f : FrameRec) (v : ServiceRec) (h : Candidate) :
    (s.under e p g).deferVerdict p f v h = (s.deferVerdict p f v h).under e p g := by
  simp only [State.deferVerdict, State.under_port, Port.withStop_window, State.under_rcv, State.under_reserve,
    State.under_giveVerdict, State.ite_under]

@[simp] theorem State.under_decideVerdict (f : FrameRec) (v : ServiceRec) :
    (s.under e p g).decideVerdict p f v = (s.decideVerdict p f v).under e p g := by
  unfold State.decideVerdict
  split <;> simp only [State.under_deliverVerdict, State.under_replySlotVerdict, State.under_giveVerdict,
    State.under_deferVerdict]

@[simp] theorem State.under_receiverBreaks (f : FrameRec) (low : Option Time) :
    (s.under e p g).receiverBreaks p f low = (s.receiverBreaks p f low).under e p g := by
  simp only [State.receiverBreaks, State.under_count, State.under_dropService, State.under_port, State.under_timeBase,
    Port.withStop_endFrame]
  rw [State.under_setPort _ rfl, State.under_setSnapshot]

@[simp] theorem State.under_reachTurnaround (f : FrameRec) (v : ServiceRec) (last : Level) :
    (s.under e p g).reachTurnaround p f v last = (s.reachTurnaround p f v last).under e p g := by
  unfold State.reachTurnaround
  simp only [State.under_port, Port.withStop_endBit, State.under_setFrame, Port.withStop_nextToken, Port.withStop_config,
    State.under_timeBase]
  split
  · split
    · refine .trans (congrArg (State.handRecord · _ _) (s.under_setPort ?_)) (State.under_handRecord ..)
      rfl
    · rfl
  · rfl

@[simp] theorem State.under_afterAccept (f : FrameRec) (v : ServiceRec) (n : Nat) (last : Level) :
    (s.under e p g).afterAccept p f v n last = (s.afterAccept p f v n last).under e p g := by
  unfold State.afterAccept
  rw [State.under_driveBda]
  simp only [State.under_port, Port.withStop_endBit, State.under_setFrame, State.under_reachTurnaround, State.ite_under]

@[simp] theorem State.under_replySlotRead (f : FrameRec) (n : Nat) (reading : SlotReading) (last : Level) :
    (s.under e p g).replySlotRead p f n reading last = (s.replySlotRead p f n reading last).under e p g := by
  unfold State.replySlotRead
  simp only [State.under_port, Port.withStop_window, Port.withStop_endBit, State.under_setFrame, State.under_driveBda,
    State.under_abortPending, State.ite_under]
  split <;> rfl

@[simp] theorem State.under_servingSlot (f : FrameRec) (v : ServiceRec) (reading : SlotReading) (last : Level) :
    (s.under e p g).servingSlot p f v reading last = (s.servingSlot p f v reading last).under e p g := by
  unfold State.servingSlot
  simp only [State.under_afterAccept, State.under_port, Port.withStop_endBit, State.under_observeFrame, State.under_setFrame,
    State.under_driveBda, State.under_replySlotRead, State.ite_under]
  split <;> rfl

@[simp] theorem State.under_servingCloses (f : FrameRec) (v : ServiceRec) :
    (s.under e p g).servingCloses p f v = (s.servingCloses p f v).under e p g := by
  simp only [State.servingCloses, State.under_count, State.under_deliver, State.under_endEarly, State.ite_under,
    State.under_port, State.under_timeBase, Port.withStop_toIdle]
  rw [State.under_setPort _ rfl, State.under_setSnapshot]

/-! ### The initiator (chapters 1 to 3) -/

@[simp] theorem State.under_refusedReplyGoesOn (f : FrameRec) (r : SubId) (d : Desc) (n : Nat) (last : Level) :
    (s.under e p g).refusedReplyGoesOn p f r d n last = (s.refusedReplyGoesOn p f r d n last).under e p g := by
  simp only [State.refusedReplyGoesOn, State.under_port, Port.withStop_endBit, State.under_observeFrame]
  exact State.under_attemptOver _ rfl ..

@[simp] theorem State.under_initiatorGoes (f : FrameRec) (bda : Driver) (last : Level) :
    (s.under e p g).initiatorGoes p f bda last = (s.initiatorGoes p f bda last).under e p g := by
  simp only [State.initiatorGoes, State.under_port, Port.withStop_endBit, State.under_setFrame, State.under_timeBase,
    Port.withStop_halfBit, State.under_driveBda]
  split
  · exact State.under_setPort _ rfl
  · rfl

@[simp] theorem State.under_initiatorSlot (f : FrameRec) (r : SubId) (d : Desc) (reading : SlotReading) (last : Level) :
    (s.under e p g).initiatorSlot p f r d reading last = (s.initiatorSlot p f r d reading last).under e p g := by
  unfold State.initiatorSlot
  simp only [State.under_initiatorGoes, State.under_mustClose, State.under_refusedReplyGoesOn, State.ite_under]
  split <;> rfl

@[simp] theorem State.under_takeReplyByte (f : FrameRec) (r : SubId) (n : Nat) (byte : Byte) :
    (s.under e p g).takeReplyByte p f r n byte = (s.takeReplyByte p f r n byte).under e p g := by
  unfold State.takeReplyByte
  simp only [State.under_execOf, State.under_mustClose, State.under_port, Port.withStop_endBit, State.under_setFrame,
    State.under_driveBda, State.under_setExec, State.ite_under]
  split <;> rfl

@[simp] theorem State.under_frameBreaks (x : Port) (f : FrameRec) (low : Option Time) :
    (s.under e p g).frameBreaks p (x.withStop g) f low = (s.frameBreaks p x f low).under e p g := by
  unfold State.frameBreaks
  simp only [Port.withStop_state, State.under_timeBase, Port.withStop_endFrame, State.under_receiverBreaks]
  split
  · rw [State.under_setPort _ rfl, State.under_returnTurn]
  · exact State.under_attemptOver _ rfl ..
  all_goals rfl

@[simp] theorem State.under_closeQuery (q : QueryDetails) (y : ExpiryAnswer) (reason : CloseReason) (bck : Level) :
    (s.under e p g).closeQuery p q y reason bck = (s.closeQuery p q y reason bck).under e p g := by
  unfold State.closeQuery
  simp only [State.under_port, Port.withStop_service, State.under_timeBase]
  rw [State.under_setPort, State.under_queryClosed]
  split <;> rfl

end Sys2Proof.Machine
end

section
/-!
PROOFS. The happenings at a port, one lemma for each: while the device works, each acts in the same way in every engine state,
and with and without a stop pending on its port, but for the header judgement of a receiver and the stuck condition (R35).
-/
namespace Sys2Proof.Machine
open Sys2Proof.Safety

variable {s : State} {p : PortId} {c : Instr} {ok : (Bool → Bool) → Prop}

/-- What a happening does at its port before it settles, `t`, is the same in every engine state, and under every stop that `ok`
admits; it keeps the engine state, and the stop too. -/
structure ActsAlike (c : Instr) (s t : State) (p : PortId) (ok : (Bool → Bool) → Prop) : Prop where
  runs : exec c s = .next (t.settle p s)
  engine : t.engine = s.engine
  stop : ok (fun _ => (s.port p).stopPending) → (t.port p).stopPending = (s.port p).stopPending
  alike (e : EngineState) (g : Bool → Bool) : ok g → (s.under e p g).live = true →
    exec c (s.under e p g) = .next ((t.under e p g).settle p (s.under e p g))

/-- The same device in another engine state. -/
theorem State.under_id (s : State) {e : EngineState} : s.under e p id = { s with engine := e } := by
  unfold State.under
  rw [show (s.port p).withStop id = s.port p from rfl, State.setPort_self]

theorem State.under_same (s : State) : s.under s.engine p (fun _ => (s.port p).stopPending) = s :=
  s.under_id (e := s.engine)

section
variable (hl : s.live = true)
include hl

theorem actsAlike_of_event {act leaves : State → Port → State} (hc : ∀ s : State, exec c s = .next (s.event p (act s) (leaves s)))
    (hid : ok id) (h : ∀ e g, ok g → act (s.under e p g) ((s.port p).withStop g) = (act s (s.port p)).under e p g) :
    ActsAlike c s (act s (s.port p)) p ok := by
  refine ⟨?_, ?_, fun hok => ?_, fun e g hok hl' => ?_⟩
  · rw [hc, State.event_of_live hl]
  · have hsame : act s (s.port p) = (act s (s.port p)).under s.engine p id := by
      have hact := h s.engine id hid
      rwa [show s.under s.engine p id = s from s.under_id] at hact
    rw [hsame, State.under_engine]
  · have hsame : act s (s.port p) = (act s (s.port p)).under s.engine p fun _ => (s.port p).stopPending := by
      have hact := h s.engine _ hok
      rwa [State.under_same] at hact
    rw [hsame, State.under_port, Port.withStop_stopPending]
  · rw [hc, State.event_of_live hl', State.under_port, h e g hok]

omit hl in
theorem onFrame_under {e : EngineState} {g : Bool → Bool} {act act' : Port → FrameRec → State}
    (h : ∀ f, (s.port p).frame = some f → act' ((s.port p).withStop g) f = (act (s.port p) f).under e p g) :
    (s.under e p g).onFrame act' ((s.port p).withStop g) = (s.onFrame act (s.port p)).under e p g := by
  unfold State.onFrame
  rw [Port.withStop_frame]
  split
  · next f hf => exact h f hf
  · rfl

theorem actsAlike_of_inFrame {act leaves : State → Port → FrameRec → State}
    (hc : ∀ s : State, exec c s = .next (s.inFrame p (act s) (leaves s))) (hid : ok id)
    (h : ∀ e g f, ok g → (s.port p).frame = some f →
      act (s.under e p g) ((s.port p).withStop g) f = (act s (s.port p) f).under e p g) :
    ∃ t, ActsAlike c s t p ok :=
  ⟨_, actsAlike_of_event hl hc hid fun e g hok => onFrame_under fun f hf => h e g f hok hf⟩

/-! ### Openings and the header (chapters 1 and 3) -/

variable (hid : ok id)
include hid

theorem opening_actsAlike : ∃ t, ActsAlike (.opening p) s t p ok := by
  refine ⟨_, actsAlike_of_event hl (fun _ => rfl) hid fun e g _ => ?_⟩
  simp only [Port.withStop_state, Port.withStop_frame, Port.withStop_recovery, State.under_timeBase, Port.withStop_seeOpening,
    State.under_setPort _ rfl, State.under_recovered _ rfl, State.under_returnTurn, State.ite_under]
  split
  · rfl
  · split
    · split <;> rfl
    · rfl
  · rfl
  · rfl

theorem arbitrationLoss_actsAlike (bit : Fin 24) : ∃ t, ActsAlike (.arbitrationLoss p bit) s t p ok := by
  refine actsAlike_of_inFrame hl (fun _ => rfl) hid fun e g f _ _ => ?_
  simp only [Port.withStop_lostTurn, Port.withStop_config]
  split
  · rw [State.under_count, State.under_setFrame, State.under_port, State.under_setPort, State.under_loseTurn]
    rfl
  · rfl

/-- R35, R82: the judgement of a receiver looks at the stop. -/
theorem headerJudgement_actsAlike (wire : Header)
    (hstop : ∀ g f n, ok g → (s.port p).frame = some f → f.position = .header n →
      (s.port p).state = .observing ∨ ((s.port p).state = .arbitrating ∧ f.turn = none) →
      g (s.port p).stopPending = (s.port p).stopPending) : ∃ t, ActsAlike (.headerJudgement p wire) s t p ok := by
  refine actsAlike_of_inFrame hl (fun _ => rfl) hid fun e g f hok hf => ?_
  simp only [Port.withStop_state]
  split
  · next n hpos =>
    split
    · simp only [State.under_initiate, State.under_execOf, State.under_setExec]
      split <;> rfl
    · next hs ht => exact State.under_receiverJudges _ (hstop g f n hok hf hpos (.inr ⟨hs, ht⟩)) ..
    · next hs => exact State.under_receiverJudges _ (hstop g f n hok hf hpos (.inl hs)) ..
    · rfl
  · rfl

/-! ### Bytes, slots and holds (chapters 1, 2 and 5) -/

theorem channelByte_actsAlike (byte : Byte) : ∃ t, ActsAlike (.channelByte p byte) s t p ok := by
  refine actsAlike_of_inFrame hl (fun _ => rfl) hid fun e g f _ _ => ?_
  simp only [State.under_port, Port.withStop_state, Port.withStop_endBit, State.under_observeFrame, State.under_setFrame,
    State.under_sentByte, State.under_byteSent, State.ite_under]
  split
  · rfl
  · rfl
  · split <;> rfl
  · rfl

theorem headerVerdict_actsAlike (length : Byte) : ∃ t, ActsAlike (.headerVerdict p length) s t p ok := by
  refine actsAlike_of_inFrame hl (fun _ => rfl) hid fun e g f _ _ => ?_
  simp only [Port.withStop_state, State.under_timeBase, Port.withStop_endBit, Port.withStop_bdaLowAt, State.under_receiverBreaks,
    State.under_decideVerdict, State.under_port, State.under_setFrame, State.under_sentByte, State.under_byteSent]
  split
  · split
    · split
      · rfl
      · split <;> rfl
    · split
      · rfl
      · split <;> rfl
    · split <;> rfl
    · rfl
  · rfl

theorem byteReceived_actsAlike (byte : Byte) : ∃ t, ActsAlike (.byteReceived p byte) s t p ok := by
  refine actsAlike_of_inFrame hl (fun _ => rfl) hid fun e g f _ _ => ?_
  simp only [Port.withStop_state, State.under_port, Port.withStop_endBit, State.under_setFrame, State.under_driveBda,
    State.under_observeFrame, State.under_sentByte, State.under_byteSent]
  split
  · rfl
  · rfl
  · rfl
  · rfl
  · split <;> rfl
  · rfl

theorem acknowledgeSlot_actsAlike (presence verdict : Level) : ∃ t, ActsAlike (.acknowledgeSlot p presence verdict) s t p ok := by
  refine actsAlike_of_inFrame hl (fun _ => rfl) hid fun e g f _ _ => ?_
  simp only [Port.withStop_state, State.under_stagedOf, State.under_initiatorSlot, State.under_servingSlot, State.under_port,
    Port.withStop_endBit, State.under_setFrame]
  split
  · split <;> rfl
  · rfl
  · rfl
  · rfl

theorem turnaroundSlot_actsAlike (presence verdict : Level) : ∃ t, ActsAlike (.turnaroundSlot p presence verdict) s t p ok := by
  refine actsAlike_of_inFrame hl (fun _ => rfl) hid fun e g f _ _ => ?_
  simp only [Port.withStop_state, State.under_initiatorGoes, State.under_turnaroundReply, State.under_port,
    Port.withStop_endBit, State.under_setFrame, State.under_driveBda, State.under_observeFrame]
  split
  · rfl
  · split <;> rfl
  · rfl
  · rfl
  · rfl

theorem replyLengthByte_actsAlike (length : Byte) : ∃ t, ActsAlike (.replyLengthByte p length) s t p ok := by
  refine actsAlike_of_inFrame hl (fun _ => rfl) hid fun e g f _ _ => ?_
  simp only [Port.withStop_state, Port.withStop_bdaDriver, State.under_initiatorGoes, State.under_port, Port.withStop_endBit,
    State.under_setFrame, State.under_sentByte, State.under_byteSent]
  split
  · rfl
  · rfl
  · split
    · rfl
    · split <;> rfl
  · rfl

theorem replyByte_actsAlike (byte : Byte) : ∃ t, ActsAlike (.replyByte p byte) s t p ok := by
  refine actsAlike_of_inFrame hl (fun _ => rfl) hid fun e g f _ _ => ?_
  simp only [Port.withStop_state, State.under_takeReplyByte, State.under_port, Port.withStop_endBit, State.under_setFrame,
    State.under_sentByte, State.under_byteSent]
  split
  · rfl
  · rfl
  · split
    · rfl
    · split <;> rfl
  · rfl

theorem overridden_actsAlike (bit : Fin 8) : ∃ t, ActsAlike (.overridden p bit) s t p ok := by
  refine actsAlike_of_inFrame hl (fun _ => rfl) hid fun e g f _ _ => ?_
  simp only [Port.withStop_state, State.under_sentRecessive, State.under_timeBase]
  split
  · exact State.under_setPort _ rfl
  · rfl

theorem hold_actsAlike (bit : Fin 8) : ∃ t, ActsAlike (.hold p bit) s t p ok := by
  refine actsAlike_of_inFrame hl (fun _ => rfl) hid fun e g f _ _ => ?_
  simp only [Port.withStop_state, State.under_bdaInBit, State.under_timeBase]
  split
  · exact State.under_setPort _ rfl
  · exact State.under_setPort _ rfl
  · exact State.under_setPort _ rfl
  · exact State.under_setPort _ rfl
  · rfl

theorem holdCeilingPassed_actsAlike : ∃ t, ActsAlike (.holdCeilingPassed p) s t p ok := by
  refine ⟨_, actsAlike_of_event hl (fun _ => rfl) hid fun e g _ => onFrame_under fun f _ => ?_⟩
  simp only [Port.withStop_state, Port.withStop_config, ↓State.under_setTimeBase, State.under_timeBase]
  split
  · exact State.under_setPort _ rfl
  · rfl

/-! ### The ends of frames (chapters 1 and 2) -/

theorem closing_actsAlike : ∃ t, ActsAlike (.closing p) s t p ok := by
  refine ⟨_, actsAlike_of_event hl (fun _ => rfl) hid fun e g _ => ?_⟩
  simp only [Port.withStop_state, Port.withStop_frame, State.under_timeBase, Port.withStop_seesClosing,
    Port.withStop_closesInRecovery, Port.withStop_toIdle, State.under_setPort _ rfl, State.under_returnTurn,
    State.under_attemptOver _ rfl, State.under_servingCloses]
  split
  · rfl
  · rfl
  · exact State.under_setPort _ rfl
  · split <;> rfl
  · split <;> rfl
  · rfl
  · split <;> rfl
  · rfl

theorem frameBroken_actsAlike (cause : BreakCause) : ∃ t, ActsAlike (.frameBroken p cause) s t p ok := by
  refine actsAlike_of_inFrame hl (fun _ => rfl) hid fun e g f _ _ => ?_
  simp only [State.under_timeBase, State.under_frameBreaks]

theorem frameSilence_actsAlike (bda : Level) : ∃ t, ActsAlike (.frameSilence p bda) s t p ok := by
  refine actsAlike_of_inFrame hl (fun _ => rfl) hid fun e g f _ _ => ?_
  simp only [Port.withStop_receiverSilence, Port.withStop_config, Port.withStop_bdaLowSince, ↓State.under_setTimeBase,
    State.under_timeBase, State.under_receiverBreaks]
  split <;> rfl

theorem clash_actsAlike (bit : Fin 8) : ∃ t, ActsAlike (.clash p bit) s t p ok := by
  refine actsAlike_of_inFrame hl (fun _ => rfl) hid fun e g f _ _ => ?_
  simp only [Port.withStop_state, State.under_sentRecessive]
  rw [State.under_count]
  split
  · split
    · rw [State.under_port, Port.withStop_clocked, Port.withStop_toObserving, State.under_attemptOver _ rfl,
        State.under_timeBase]
    · rfl
  · rfl

/-! ### Lines, recovery and the answer limit (chapters 1, 2 and 6) -/

theorem lineGoesLow_actsAlike (line : Line) (moment : LineMoment) : ∃ t, ActsAlike (.lineGoesLow p line moment) s t p ok := by
  refine ⟨_, actsAlike_of_event hl (fun _ => rfl) hid fun e g _ => ?_⟩
  simp only [Port.withStop_state, State.under_timeBase, Port.withStop_lineFalls, Port.withStop_lineRises,
    Port.withStop_bckRisesInRecovery, Port.withStop_lineInFrame]
  cases line <;> cases moment <;>
  · simp only [State.under_setPort _ rfl]
    split <;> rfl

theorem idleGap_actsAlike : ∃ t, ActsAlike (.idleGap p) s t p ok := by
  refine ⟨_, actsAlike_of_event hl (fun _ => rfl) hid fun e g _ => ?_⟩
  simp only [Port.withStop_idleSince, Port.withStop_state, Port.withStop_idleFull, Port.withStop_recovery, Port.withStop_config,
    ↓State.under_setTimeBase, State.under_timeBase, Port.withStop_toIdle]
  split
  · split
    · split
      · rfl
      · exact State.under_setPort _ rfl
    · split
      · exact State.under_recovered _ rfl
      · rfl
    · rfl
  · rfl

theorem recoveryFailed_actsAlike (line : Line) : ∃ t, ActsAlike (.recoveryFailed p line) s t p ok := by
  refine ⟨_, actsAlike_of_event hl (fun _ => rfl) hid fun e g _ => ?_⟩
  simp only [Port.withStop_state, Port.withStop_recovery, Port.withStop_recoveryLimit, ↓State.under_setTimeBase,
    State.under_timeBase, Port.withStop_failsBy]
  split
  · split
    · exact State.under_recoveryFails _ rfl
    · rfl
  · rfl

theorem clockPulse_actsAlike (bda : Level) : ∃ t, ActsAlike (.clockPulse p bda) s t p ok := by
  refine ⟨_, actsAlike_of_event hl (fun _ => rfl) hid fun e g _ => ?_⟩
  simp only [Port.withStop_state, Port.withStop_recovery, Port.withStop_config, Port.withStop_halfBit, State.under_timeBase]
  split
  · next v _ _ =>
    split
    · split
      · exact State.under_setPort _ rfl
      · split
        · refine State.under_recoveryFails _ ?_
          by_cases hw : v.phase = .waiting
          · rw [if_pos hw, if_pos hw, if_pos hw]
            rfl
          · rw [if_neg hw, if_neg hw, if_neg hw]
            rfl
        · exact State.under_setPort _ rfl
    · rfl
  · rfl

theorem answerLimitExpiry_actsAlike (bck : Level) : ∃ t, ActsAlike (.answerLimitExpiry p bck) s t p ok := by
  refine ⟨_, actsAlike_of_event hl (fun _ => rfl) hid fun e g _ => ?_⟩
  simp only [Port.withStop_window, ↓State.under_setTimeBase, State.under_timeBase, State.under_closeQuery]
  split <;> rfl

end

end Sys2Proof.Machine
end

section
/-!
PROOFS. The engine commands, and the happenings that lead from HALTING to HALTED (O4).
-/
namespace Sys2Proof.Machine
open Sys2Proof.Safety

variable {s t : State} {e : EngineState} {p : PortId} {g : Bool → Bool} {c : Instr} {ok : (Bool → Bool) → Prop}

/-! ### The stuck condition where the stop of its port stays (R36, R35) -/

section
variable {x : Port}

@[simp] theorem Port.withStop_holdsLow (line : Line) (now : Time) :
    (x.withStop g).holdsLow line now = (x.holdsLow line now).withStop g := by cases line <;> rfl

@[simp] theorem Port.withStop_toRecovering (now : Time) :
    (x.withStop g).toRecovering now = (x.toRecovering now).withStop g := by
  unfold Port.toRecovering
  rw [Port.withStop_bckLowSince]
  split <;> rfl

theorem Port.withStop_id_goOff : (x.withStop id).goOff = x.goOff.withStop id := rfl

end

theorem State.under_enterOff (s : State) : (s.under e p id).enterOff p = (s.enterOff p).under e p id := by
  unfold State.enterOff
  rw [State.under_port, Port.withStop_id_goOff, State.under_setPort _ rfl, State.under_setSnapshot, State.under_portDown]
  simp only [State.under_admin, State.under_finishAdmin, State.ite_under]

theorem State.under_inRingOrder (s before : State) :
    (s.under e p g).inRingOrder (before.under e p g) = (s.inRingOrder before).under e p g := rfl

theorem stuckCondition_actsAlike (hl : s.live = true) (hid : ok id) (hok : ∀ g, ok g → g = id) (line : Line) :
    ∃ t, ActsAlike (.stuckCondition p line) s t p ok := by
  refine ⟨_, actsAlike_of_event hl (fun _ => rfl) hid fun e g hg => ?_⟩
  obtain rfl := hok g hg
  simp only [Port.withStop_state, Port.withStop_lowSince, Port.withStop_config, Port.withStop_stopPending,
    ↓State.under_setTimeBase, State.under_timeBase, State.under_count, State.under_handOverStuck, State.under_setSnapshot,
    State.under_enterOff, State.under_inRingOrder, State.under_port, Port.withStop_holdsLow, Port.withStop_toRecovering,
    State.under_setPort _ rfl, State.ite_under, id]
  split <;> rfl

/-! ### Every happening at a port -/

/-- R35: a stuck condition and a receiver's header judgement alone look at the stop before they settle. -/
theorem happening_actsAlike (hl : s.live = true) (hid : ok id) (hc : happensAt c = some p)
    (hstuck : ∀ line, c = .stuckCondition p line → ∀ g, ok g → g = id)
    (hjudge : ∀ wire g f n, c = .headerJudgement p wire → ok g → (s.port p).frame = some f → f.position = .header n →
      (s.port p).state = .observing ∨ ((s.port p).state = .arbitrating ∧ f.turn = none) →
      g (s.port p).stopPending = (s.port p).stopPending) : ∃ t, ActsAlike c s t p ok := by
  cases c <;> cases hc
  case opening => exact opening_actsAlike hl hid
  case arbitrationLoss => exact arbitrationLoss_actsAlike hl hid _
  case headerJudgement => exact headerJudgement_actsAlike hl hid _ fun g f n => hjudge _ g f n rfl
  case channelByte => exact channelByte_actsAlike hl hid _
  case headerVerdict => exact headerVerdict_actsAlike hl hid _
  case byteReceived => exact byteReceived_actsAlike hl hid _
  case acknowledgeSlot => exact acknowledgeSlot_actsAlike hl hid _ _
  case turnaroundSlot => exact turnaroundSlot_actsAlike hl hid _ _
  case replyLengthByte => exact replyLengthByte_actsAlike hl hid _
  case replyByte => exact replyByte_actsAlike hl hid _
  case overridden => exact overridden_actsAlike hl hid _
  case hold => exact hold_actsAlike hl hid _
  case holdCeilingPassed => exact holdCeilingPassed_actsAlike hl hid
  case closing => exact closing_actsAlike hl hid
  case frameBroken => exact frameBroken_actsAlike hl hid _
  case frameSilence => exact frameSilence_actsAlike hl hid _
  case clash => exact clash_actsAlike hl hid _
  case lineGoesLow => exact lineGoesLow_actsAlike hl hid _ _
  case idleGap => exact idleGap_actsAlike hl hid
  case stuckCondition => exact stuckCondition_actsAlike hl hid (hstuck _ rfl) _
  case recoveryFailed => exact recoveryFailed_actsAlike hl hid _
  case clockPulse => exact clockPulse_actsAlike hl hid _
  case answerLimitExpiry => exact answerLimitExpiry_actsAlike hl hid _

/-! ### What a happening brings about at its end (R35, R174) -/

theorem enterOff_engine : (s.enterOff p).engine = s.engine := by
  have h : s.under s.engine p id = s := s.under_id
  have hoff := s.under_enterOff (e := s.engine) (p := p)
  rw [h] at hoff
  rw [hoff, State.under_engine]

theorem settleStop_engine {before : State} : (s.settleStop p before).engine = s.engine := by
  unfold State.settleStop
  dsimp only
  split
  · rw [State.inRingOrder_engine, enterOff_engine]
  · rfl

theorem State.under_settleStop (s before : State) (hl : s.live = (s.under e p id).live) :
    (s.under e p id).settleStop p (before.under e p id) = (s.settleStop p before).under e p id := by
  unfold State.settleStop
  simp only [← hl, State.under_port, Port.withStop_stopPending, Port.withStop_state, State.under_enterOff,
    State.under_inRingOrder, State.ite_under, id]

theorem quiet_iff : Quiet s ↔
    s.ports.all (fun x => x.state != .arbitrating && x.state != .initiating) = true ∧ (s.sub 0).occupancy = .empty := by
  refine and_congr_left fun _ => ?_
  rw [Vector.all_eq_true]
  refine ⟨fun h i hi => ?_, fun h p => ?_⟩
  · have hp := h ⟨i, hi⟩
    simpa [State.port] using hp
  · have hp := h p.val p.isLt
    simpa [State.port] using hp

theorem settleHalt_halting_of_quiet (h : Quiet s) :
    ({ s with engine := .halting } : State).settleHalt = { s with engine := .halted } := if_pos ⟨rfl, quiet_iff.1 h⟩

theorem settleHalt_halting_of_not_quiet (h : ¬ Quiet s) :
    ({ s with engine := .halting } : State).settleHalt = { s with engine := .halting } :=
  if_neg fun hq => h (quiet_iff.2 hq.2)

/-- R60, R174: how the obligation states what an engine that is HALTED or HALTING makes of a command. -/
def HaltsAlike (c : Instr) (s t : State) : Prop :=
  exec c { s with engine := .halted } = .next { t with engine := .halted } ∧
  (Quiet t → exec c { s with engine := .halting } = .next { t with engine := .halted }) ∧
  (¬ Quiet t → exec c { s with engine := .halting } = .next { t with engine := .halting })

theorem haltsAlike_of_settleHalt
    (h : ∀ e, e = .halted ∨ e = .halting → exec c { s with engine := e } = .next ({ t with engine := e } : State).settleHalt) :
    HaltsAlike c s t := by
  refine ⟨(h _ (.inl rfl)).trans ?_, fun hq => (h _ (.inr rfl)).trans ?_, fun hq => (h _ (.inr rfl)).trans ?_⟩
  · exact congrArg _ (settleHalt_of_not_halting (show EngineState.halted ≠ .halting by decide))
  · exact congrArg _ (settleHalt_halting_of_quiet hq)
  · exact congrArg _ (settleHalt_halting_of_not_quiet hq)

theorem happening_haltsAlike (he : s.engine = .running) (hc : happensAt c = some p) (ht : exec c s = .next t) :
    HaltsAlike c s t := by
  have hl : s.live = true := by simp [State.live, he]
  obtain ⟨u, hu⟩ := happening_actsAlike (ok := (· = id)) hl rfl hc (fun _ _ _ hg => hg) fun _ _ _ _ _ hg _ _ _ => by rw [hg]; rfl
  have hengine : u.engine = .running := hu.engine.trans he
  have htu : t = u.settleStop p s := by
    have hsettle := Host.Outcome.next.inj (ht.symm.trans hu.runs)
    rwa [State.settle, settleHalt_of_not_halting (by rw [settleStop_engine, hengine]; decide)] at hsettle
  refine haltsAlike_of_settleHalt fun e hhalt => ?_
  have hlive (u : State) : (u.under e p id).live = true := by rcases hhalt with rfl | rfl <;> rfl
  have hul : u.live = true := by simp [State.live, hengine]
  have hexec := hu.alike e id rfl (hlive s)
  rwa [State.settle, State.under_settleStop _ _ (hul.trans (hlive u).symm), ← htu, State.under_id, State.under_id] at hexec

/-! ### The end of a completion record's write (R143, R134) -/

theorem State.under_sendIf (s : State) (b : Bool) (v : VecId) :
    (s.under e p g).sendIf b v = (s.sendIf b v).under e p g := by
  have hv : (s.under e p g).vector v = s.vector v := rfl
  unfold State.sendIf State.sendMessage
  rw [hv]
  dsimp only
  split_ifs <;> rfl

theorem State.under_recordWritten (s : State) (r : SubId) :
    (s.under e p g).recordWritten r = (s.recordWritten r).under e p g := by
  simp only [State.recordWritten, State.under_sub, State.under_admin, State.under_setSub, State.under_finishAdmin,
    State.ite_under]

theorem sendIf_engine {b : Bool} {v : VecId} : (s.sendIf b v).engine = s.engine := by
  obtain ⟨_, _, h⟩ := s.sendIf_frame b v
  rw [h]

theorem completionWriteEnd_haltsAlike {k : CplId} (he : s.engine = .running) (hq : (s.cpl k).queue ≠ [])
    (hw : (s.cpl k).writing ≠ none) (ht : exec (.completionWriteEnd k .ok) s = .next t) :
    HaltsAlike (.completionWriteEnd k .ok) s t := by
  obtain ⟨y, rest, hqueue⟩ := List.exists_cons_of_ne_nil hq
  obtain ⟨w, hwriting⟩ := Option.ne_none_iff_exists'.1 hw
  have hexec := completionWriteEnd_ok (by simp [State.live, he]) hqueue hwriting
  have htu := Host.Outcome.next.inj (ht.symm.trans hexec)
  rw [settleHalt_of_not_halting (by
    rw [sendIf_engine, recordWritten_frame]
    show s.engine ≠ .halting
    rw [he]
    decide)] at htu
  refine haltsAlike_of_settleHalt fun e hhalt => ?_
  have hlive : (s.under e 0 id).live = true := by rcases hhalt with rfl | rfl <;> rfl
  have hexec' := completionWriteEnd_ok (s := s.under e 0 id) hlive hqueue hwriting
  rw [State.under_cpl, State.under_timeBase, State.under_setCpl, State.under_recordWritten, State.under_sendIf, ← htu,
    State.under_id, State.under_id] at hexec'
  exact hexec'

/-! ### The commands (R171, R173 to R176) -/

theorem halt_waits (he : s.engine = .running) (h : ¬ Quiet s) : exec .halt s = .next { s with engine := .halting } := by
  refine (congrArg Host.Outcome.next (if_pos he)).trans (congrArg _ ?_)
  exact settleHalt_halting_of_not_quiet h

theorem halt_at_once (he : s.engine = .running) (h : Quiet s) : exec .halt s = .next { s with engine := .halted } := by
  refine (congrArg Host.Outcome.next (if_pos he)).trans (congrArg _ ?_)
  exact settleHalt_halting_of_quiet h

theorem unknownEngineCommand_rejected {code : BitVec 4} (h : code.toNat = 0 ∨ 6 ≤ code.toNat) :
    exec (.unknownEngineCommand code) s = .next (commandRejected s) := by
  have hcode : isEngineCommandCode code = false := by
    simp only [isEngineCommandCode, Bool.and_eq_false_iff, decide_eq_false_iff_not]
    omega
  exact congrArg Host.Outcome.next (if_neg (by simp [hcode]))

/-- Settles O4: the commands by the engine's state, and the happenings that halt it. -/
theorem engineCommandsByState : Obligations.EngineCommandsByState := by
  refine ⟨fun s => ⟨fun he ha => ?enable, fun he ha => ?unaligned, fun he => ?enableRejected⟩,
    fun s => ⟨fun he h => halt_waits he ?waits, fun he hp ho => halt_at_once he ⟨hp, ho⟩, fun he => ?haltRejected,
      fun he => ?resume, fun hne hne' => ?resumeRejected⟩,
    fun s => ⟨fun code h => unknownEngineCommand_rejected h, fun selection => rfl⟩, fun c s t hc he ht => ?halts⟩
  case enable =>
    refine (congrArg Host.Outcome.next (if_pos he)).trans (congrArg _ (if_pos ?_))
    simpa [alignedTo] using ha
  case unaligned =>
    refine (congrArg Host.Outcome.next (if_pos he)).trans (congrArg _ (if_neg ?_))
    simpa [alignedTo] using ha
  case enableRejected => exact congrArg Host.Outcome.next (if_neg he)
  case waits =>
    rintro ⟨hp, ho⟩
    rcases h with ⟨p, h | h⟩ | h
    · exact (hp p).1 h
    · exact (hp p).2 h
    · exact h ho
  case haltRejected => exact congrArg Host.Outcome.next (if_neg he)
  case resume => exact congrArg Host.Outcome.next (if_pos he)
  case resumeRejected => exact congrArg Host.Outcome.next (if_neg fun h => h.elim hne hne')
  case halts =>
    rcases hc with hc | ⟨k, rfl, hq, hw⟩
    · obtain ⟨p, hp⟩ := Option.isSome_iff_exists.1 hc
      exact happening_haltsAlike he hp ht
    · exact completionWriteEnd_haltsAlike he hq hw ht

end Sys2Proof.Machine
end

section
/-!
PROOFS. PORT_CONTROL by what it finds, and the order in which a happening hands completions over (first part of O30).
-/
namespace Sys2Proof.Machine
open Sys2Proof.Safety

variable {s t : State} {p : PortId} {f : FrameRec} {tag : BitVec 16}

/-! ### The checks (R24) -/

theorem portControl_bad {port sub k : Nat} {act : PortId → State} (h : Carries s tag (.portControl port sub))
    (hbad : 3 < port ∨ sub = 0 ∨ 3 < sub) : s.portControl k act = commandEnds s tag .badParameter := by
  rw [State.portControl, freshCmd_of_carries h]
  dsimp only
  split
  · exact finishAdmin_of_carries h
  · next q hq =>
    have hport : port < 4 := by
      by_contra hge
      rw [numbered_eq_none (Nat.not_lt.1 hge)] at hq
      cases hq
    rw [if_pos (by omega), finishAdmin_of_carries h]

theorem portControl_acts {k : Nat} {act : PortId → State} (h : Carries s tag (.portControl p.val k)) (h1 : 1 ≤ k) (h3 : k ≤ 3) :
    s.portControl k act = act p := by
  simp only [State.portControl, freshCmd_of_carries h, numbered_val, if_neg (show ¬ (k < 1 ∨ 3 < k) by omega), if_true]

/-! ### START and RECOVER (R24, R39) -/

section
variable (h : Carries s tag (.portControl p.val 1))
include h

theorem start_off (hs : (s.port p).state = .off) (bck bda : Level) :
    exec (.portControlStart bck bda) s =
      .next
        (commandEnds
          (s.setPort p
            { s.port p with
              state := .idle, stopPending := false, bckDriver := .released, bdaDriver := .released, busView := .busy,
              idleSince := if bck = .recessive ∧ bda = .recessive then some s.timeBase else none, idleFull := false,
              bckLowSince := if bck = .dominant then some s.timeBase else none,
              bdaLowSince := if bda = .dominant then some s.timeBase else none, silenceSince := none,
              frame := none, recovery := none }) tag .success) := by
  refine congrArg Host.Outcome.next ((portControl_acts h (by omega) (by omega)).trans ((if_pos hs).trans ?_))
  exact finishAdmin_of_carries (carries_setPort h)

theorem start_busy (hs : (s.port p).state ≠ .off) (bck bda : Level) :
    exec (.portControlStart bck bda) s = .next (commandEnds s tag .portBusy) :=
  congrArg Host.Outcome.next
    ((portControl_acts h (by omega) (by omega)).trans ((if_neg hs).trans (finishAdmin_of_carries h)))

end

section
variable (h : Carries s tag (.portControl p.val 3))
include h

theorem recover_faulted (hs : (s.port p).state = .faulted) :
    exec .portControlRecover s =
      .next
        { s.setPort p
            { recovers (s.port p) s.timeBase with
              stats := { (s.port p).stats with stuckEvents := (s.port p).stats.stuckEvents + 1 } } with
          admin := .recovering p } := by
  refine congrArg Host.Outcome.next ((portControl_acts h (by omega) (by omega)).trans ((if_pos hs).trans ?_))
  rw [State.count, State.setPort_port_self, State.setPort_setPort, toRecovering_eq]
  rfl

theorem recover_busy (hs : (s.port p).state ≠ .faulted) :
    exec .portControlRecover s = .next (commandEnds s tag .portBusy) :=
  congrArg Host.Outcome.next
    ((portControl_acts h (by omega) (by omega)).trans ((if_neg hs).trans (finishAdmin_of_carries h)))

end

/-! ### STOP (R34, R35, R120) -/

/-- R134: no ABORT is in progress. -/
theorem portDown_setAdmin {a : AdminPhase} (hs : ∀ r status, s.admin ≠ .aborting r status)
    (ha : ∀ r status, a ≠ .aborting r status) :
    ({ s with admin := a } : State).portDown p = { s.portDown p with admin := a } := by
  obtain ⟨hsame, hsub, hcpl⟩ := portDown_spec (s := s) (p := p) fun r _ status => hs r status
  obtain ⟨hsame', hsub', hcpl'⟩ := portDown_spec (s := { s with admin := a }) (p := p) fun r _ status => ha r status
  have hsubs : (({ s with admin := a } : State).portDown p).subs = (s.portDown p).subs :=
    Vector.ext fun i hi => (hsub' ⟨i, hi⟩).trans (hsub ⟨i, hi⟩).symm
  have hcpls : (({ s with admin := a } : State).portDown p).cpls = (s.portDown p).cpls :=
    Vector.ext fun i hi => (hcpl' ⟨i, hi⟩).trans (hcpl ⟨i, hi⟩).symm
  rw [hsame', hsubs, hcpls, hsame]

theorem enterOff_of_stopping (h : ((s.setPort p (s.port p).goOff).setSnapshot p none).portDown p = t)
    (ha : t.admin = .stopping p) : s.enterOff p = t.finishAdmin .success := by
  unfold State.enterOff
  rw [h]
  exact if_pos ha

section
variable (h : Carries s tag (.portControl p.val 2))
include h

theorem stop_off (hs : (s.port p).state = .off) (bck : Level) :
    exec (.portControlStop bck) s = .next (commandEnds s tag .success) := by
  refine congrArg Host.Outcome.next ((portControl_acts h (by omega) (by omega)).trans ?_)
  simp only [hs]
  exact finishAdmin_of_carries h

omit h in
/-- R47: ring 0, which carries a command, has no part in a port's going down. -/
theorem portDown_sub_zero (hn : ∀ r status, s.admin ≠ .aborting r status) {cmd : AdminCmd}
    (hs : (s.sub 0).staged = some (.admin tag cmd)) : (s.portDown p).sub 0 = s.sub 0 := by
  obtain ⟨-, hsub, -⟩ := portDown_spec (s := s) (p := p) fun r _ status => hn r status
  have hwaits : ¬ s.waits p 0 := by
    intro hw
    obtain ⟨-, x, e, he⟩ := execOf_of_waits hw
    obtain ⟨-, -, -, hx⟩ := State.staged_of_execOf he
    cases hs.symm.trans hx
  exact (hsub 0).trans (if_neg hwaits)

/-- R179: the port goes OFF under its STOP, which then completes. -/
theorem enterOff_stops :
    ({ s with admin := .stopping p } : State).enterOff p =
      commandEnds (((s.setPort p (s.port p).goOff).setSnapshot p none).portDown p) tag .success := by
  obtain ⟨-, hfresh, ho, hstaged, hc⟩ := h
  have hnot (r : SubId) (status : Status) : ((s.setPort p (s.port p).goOff).setSnapshot p none).admin ≠ .aborting r status := by
    rw [State.setSnapshot_admin, State.setPort_admin, hfresh]
    nofun
  have hdown := portDown_setAdmin (p := p) (a := .stopping p) hnot (fun _ _ => nofun)
  have hzero := portDown_sub_zero (p := p) hnot hstaged
  have hoff := enterOff_of_stopping (s := { s with admin := .stopping p }) hdown rfl
  generalize ((s.setPort p (s.port p).goOff).setSnapshot p none).portDown p = u at hoff hzero ⊢
  rw [hoff]
  have hsub : u.sub 0 = s.sub 0 := hzero
  exact finishAdmin_of_staged (s := { u with admin := .stopping p }) ((congrArg SubRing.occupancy hsub).trans ho)
    ((congrArg SubRing.staged hsub).trans hstaged) ((congrArg SubRing.completion hsub).trans hc)

theorem stop_at_once
    (hs : (s.port p).state = .idle ∨ (s.port p).state = .observing ∨ (s.port p).state = .faulted ∨
      (s.port p).state = .recovering) (bck : Level) :
    exec (.portControlStop bck) s =
      .next (commandEnds (((s.setPort p (s.port p).goOff).setSnapshot p none).portDown p) tag .success) := by
  refine congrArg Host.Outcome.next ((portControl_acts h (by omega) (by omega)).trans ?_)
  rcases hs with hs | hs | hs | hs <;> simp only [hs] <;> exact enterOff_stops h

theorem stop_waits
    (hs : (s.port p).state = .arbitrating ∨ (s.port p).state = .initiating ∨ (s.port p).state = .serving) (bck : Level) :
    exec (.portControlStop bck) s =
      .next { s.setPort p { s.port p with stopPending := true } with admin := .stopping p } := by
  refine congrArg Host.Outcome.next ((portControl_acts h (by omega) (by omega)).trans ?_)
  rcases hs with hs | hs | hs <;> simp only [hs] <;> rfl

theorem stop_holding {q : QueryDetails} {expiry : ExpiryAnswer} {timer : Time} {v : ServiceRec}
    (hs : (s.port p).state = .holding) (hw : (s.port p).window = .waiting q expiry timer)
    (hf : (s.port p).frame = some f) (hv : f.service = some v) (bck : Level) :
    exec (.portControlStop bck) s =
      .next
        (({ s.setPort p
              { s.port p with
                state := .serving, stopPending := true, bckDriver := .released, window := .none,
                bckLowSince := if bck = .dominant then some s.timeBase else none, bdaLowSince := some s.timeBase,
                silenceSince := if bck = .recessive then some s.timeBase else none,
                frame := some { f with service := some { v with turnaround := some expiry } } } with
            admin := .stopping p } : State).claimAtPosting q.ring (closedRecord p q .portStopped s.timeBase)) := by
  refine congrArg Host.Outcome.next ((portControl_acts h (by omega) (by omega)).trans ?_)
  simp only [hs, hw]
  rw [closeQuery_eq (by rw [State.setPort_port_self]; exact hf) hv, State.setPort_port_self, State.setPort_setPort]
  rfl

end

/-! ### The order of a happening's completions (R61, R134) -/

theorem take_inRingOrder (k : CplRing) (n : Nat) : (k.inRingOrder n).queue.take n = k.queue.take n := by
  rw [CplRing.inRingOrder]
  rcases Nat.le_total n k.queue.length with hn | hn
  · rw [List.take_left' (by simpa using hn)]
  · simp [List.drop_of_length_le hn, List.take_of_length_le hn]

theorem drop_inRingOrder (k : CplRing) (n : Nat) :
    (k.inRingOrder n).queue.drop n =
      (k.queue.drop n).insertionSort fun a b => handOverRank a.ring ≤ handOverRank b.ring := by
  rw [CplRing.inRingOrder]
  rcases Nat.le_total n k.queue.length with hn | hn
  · rw [List.drop_left' (by simpa using hn)]
  · simp [List.drop_of_length_le hn, List.take_of_length_le hn]

theorem ring_of_handOverRank_le {q r : SubId} (h : handOverRank q ≤ handOverRank r) : r = 0 ∨ (q ≠ 0 ∧ q ≤ r) := by
  by_cases hr : r = 0
  · exact .inl hr
  · have hlt := r.isLt
    rw [handOverRank, handOverRank, if_neg hr] at h
    split at h
    · omega
    · next hq => exact .inr ⟨hq, h⟩

theorem inRingOrder_pairwise (k : CplRing) (n : Nat) :
    ((k.inRingOrder n).queue.drop n).Pairwise fun a b => b.ring = 0 ∨ (a.ring ≠ 0 ∧ a.ring ≤ b.ring) := by
  have htotal : Std.Total fun a b : CplEntry => handOverRank a.ring ≤ handOverRank b.ring := ⟨fun _ _ => Nat.le_total ..⟩
  have htrans : IsTrans CplEntry fun a b => handOverRank a.ring ≤ handOverRank b.ring := ⟨fun _ _ _ => Nat.le_trans⟩
  rw [drop_inRingOrder]
  exact (List.pairwise_insertionSort _ _).imp ring_of_handOverRank_le

end Sys2Proof.Machine
end

section
/-!
PROOFS. A port with a stop pending, from the happening that takes it OFF to the end of its STOP (O30).
-/
namespace Sys2Proof.Machine
open Sys2Proof.Safety

variable {s t : State} {p : PortId} {f : FrameRec} {c : Instr} {r : SubId} {n : Nat}

/-- R35, R134: how the obligation states that a port goes OFF at the end of a happening that began in `s`. -/
def wentOff (s : State) (p : PortId) (t : State) : State :=
  let u := ((t.setPort p (t.port p).goOff).setSnapshot p none).portDown p
  (if u.admin = .stopping p then u.finishAdmin .success else u).inRingOrder s

theorem wentOff_eq : wentOff s p t = (t.enterOff p).inRingOrder s := rfl

/-! ### The end of a happening at such a port -/

section
variable (he : t.engine = .running ∨ t.engine = .halted)
include he

theorem live_of_works : t.live = true := by rcases he with he | he <;> simp [State.live, he]

theorem settleHalt_of_works : t.settleHalt = t :=
  settleHalt_of_not_halting (by rcases he with he | he <;> rw [he] <;> nofun)

theorem settle_goesOn (hi : (t.port p).state ≠ .idle) (ho : (t.port p).state ≠ .observing) : t.settle p s = t := by
  have hstop : t.settleStop p s = t := if_neg fun h => h.2.2.elim ho hi
  rw [State.settle, hstop, settleHalt_of_works he]

theorem settle_stops (hstop : (t.port p).stopPending = true) (hs : (t.port p).state = .idle ∨ (t.port p).state = .observing) :
    t.settle p s = wentOff s p t := by
  have hoff : t.settleStop p s = wentOff s p t := if_pos ⟨live_of_works he, hstop, hs.symm⟩
  rw [State.settle, hoff, settleHalt_of_works (by rwa [wentOff_eq, State.inRingOrder_engine, enterOff_engine])]

end

theorem wentOff_congr {u : State}
    (h : (t.setPort p (t.port p).goOff).setSnapshot p none = (u.setPort p (u.port p).goOff).setSnapshot p none) :
    wentOff s p t = wentOff s p u := by
  rw [wentOff, h]
  rfl

/-- R34: what a port holds as it goes OFF leaves no trace of what has just happened to its frame. -/
theorem wentOff_setPort {x : Port} (hx : x.goOff = (t.port p).goOff) : wentOff s p (t.setPort p x) = wentOff s p t :=
  wentOff_congr (by rw [State.setPort_port_self, State.setPort_setPort, hx])

theorem wentOff_setSnapshot : wentOff s p (t.setSnapshot p none) = wentOff s p t :=
  wentOff_congr (by simp [State.setSnapshot, State.setPort, State.port])

/-! ### A happening that looks at the stop at its end alone -/

section
variable (he : s.engine = .running ∨ s.engine = .halted) (hstop : (s.port p).stopPending = true)
include he hstop

theorem happening_stops (hc : happensAt c = some p) (hstuck : ∀ line, c ≠ .stuckCondition p line)
    (hjudge : ∀ f n wire, c = .headerJudgement p wire → (s.port p).frame = some f → f.position = .header n →
      (s.port p).state ≠ .observing ∧ ((s.port p).state = .arbitrating → f.turn ≠ none))
    (ht : exec c (s.setPort p { s.port p with stopPending := false }) = .next t) :
    t.engine = s.engine ∧ exec c s = .next ((t.setPort p { t.port p with stopPending := true }).settle p s) := by
  generalize hs0 : s.setPort p { s.port p with stopPending := false } = s0 at ht
  have hport : s0.port p = { s.port p with stopPending := false } := by rw [← hs0, State.setPort_port_self]
  have hengine : s0.engine = s.engine := by rw [← hs0]; rfl
  have hback : s0.under s.engine p (fun _ => true) = s := by
    have hx : ({ s.port p with stopPending := true } : Port) = s.port p := by rw [← hstop]
    have hset : s0.setPort p { s0.port p with stopPending := true } = s := by
      rw [hport, ← hs0, State.setPort_setPort]
      exact (congrArg (s.setPort p) hx).trans (State.setPort_self s p)
    exact (congrArg (fun u : State => { u with engine := s.engine }) hset)
  have hl : s0.live = true := live_of_works (by rw [hengine]; exact he)
  obtain ⟨u, hu⟩ := happening_actsAlike (s := s0) (ok := fun _ => True) hl trivial hc
    (fun line hline => absurd hline (hstuck line)) fun wire g f n hw _ hf hpos hreceiver => by
      rw [hport] at hf hreceiver
      obtain ⟨hobs, harb⟩ := hjudge f n wire hw hf hpos
      rcases hreceiver with h | ⟨h, hturn⟩
      · exact absurd h hobs
      · exact absurd hturn (harb h)
  have hplain : Plain u p := by
    refine ⟨?_, (hu.stop trivial).trans (by rw [hport])⟩
    rw [hu.engine, hengine]
    exact he
  have htu : t = u := by
    have hsettle := Host.Outcome.next.inj (ht.symm.trans hu.runs)
    rwa [State.settle_of_plain hplain] at hsettle
  have hexec := hu.alike s.engine (fun _ => true) trivial (by rw [hback]; exact live_of_works he)
  rw [hback, ← htu] at hexec
  have htengine : t.engine = s.engine := by rw [htu, hu.engine, hengine]
  have hunder : t.under s.engine p (fun _ => true) = t.setPort p { t.port p with stopPending := true } := by
    rw [← htengine]
    rfl
  exact ⟨htengine, by rw [hexec, hunder]⟩

/-! ### The header judgement (R82, R35) -/

variable (hf : (s.port p).frame = some f) (hpos : f.position = .header n)
include hf hpos

theorem headerJudgement_stops (hs : (s.port p).state = .observing ∨ ((s.port p).state = .arbitrating ∧ f.turn = none))
    (wire : Header) : exec (.headerJudgement p wire) s = .next (wentOff s p s) := by
  have hjudges : ∀ h, s.receiverJudges p (s.port p) f h =
      s.observeFrame p { f with rxHeader := h, position := .channelByte } (levelOfBit (Header.check2 h)) := fun h => by
    simp only [State.receiverJudges, hstop, if_true]
  have hexec : exec (.headerJudgement p wire) s =
      .next ((s.observeFrame p { f with rxHeader := completeHeader f.rxHeader n wire, position := .channelByte }
        (levelOfBit (Header.check2 (completeHeader f.rxHeader n wire)))).settle p s) := by
    refine congrArg Host.Outcome.next ((State.inFrame_of_live (live_of_works he) hf).trans ?_)
    rcases hs with hs | ⟨hs, ht⟩
    · simp only [hpos, hs, hjudges]
    · simp only [hpos, hs, ht, hjudges]
  rw [hexec, settle_stops]
  · exact congrArg _ (wentOff_setPort rfl)
  · exact he
  · rw [State.observeFrame, State.setPort_port_self]
    exact hstop
  · rw [State.observeFrame, State.setPort_port_self]
    exact .inr rfl

omit hstop in
theorem headerJudgement_wins_stopping {x : StagedXfer} {e : ExecRec} (hs : (s.port p).state = .arbitrating) (ht : f.turn = some r)
    (hx : s.execOf r = some (x, e)) (wire : Header) :
    exec (.headerJudgement p wire) s =
      .next
        (withExec
          (frameAt (s.setPort p { s.port p with state := .initiating }) p { f with position := .channelByte }
            (if (f.rxHeader).getLsbD 0 then .released else .drivenLow)
            (if (f.rxHeader).getLsbD 0 then .recessive else .dominant))
          r x { e with replyArea := [] }) := by
  have hexec {y : Port} : (s.setPort p y).execOf r = some (x, e) := hx
  have hwins : exec (.headerJudgement p wire) s =
      .next ((withExec
        (frameAt (s.setPort p { s.port p with state := .initiating }) p { f with position := .channelByte }
          (if (f.rxHeader).getLsbD 0 then .released else .drivenLow)
          (if (f.rxHeader).getLsbD 0 then .recessive else .dominant))
        r x { e with replyArea := [] }).settle p s) := by
    refine congrArg Host.Outcome.next ((State.inFrame_of_live (live_of_works he) hf).trans ?_)
    simp only [hpos, hs, ht]
    rw [State.setFrame_endBit, frameAt_setPort, frameAt_setPort, State.setPort_port_self]
    simp only [hexec]
    rfl
  have hstate : ((withExec
      (frameAt (s.setPort p { s.port p with state := .initiating }) p { f with position := .channelByte }
        (if (f.rxHeader).getLsbD 0 then .released else .drivenLow)
        (if (f.rxHeader).getLsbD 0 then .recessive else .dominant))
      r x { e with replyArea := [] }).port p).state = .initiating := by
    rw [withExec, State.setSub_port, frameAt, State.setPort_port_self, State.setPort_port_self]
    rfl
  rw [hwins, settle_goesOn]
  · exact he
  · rw [hstate]
    nofun
  · rw [hstate]
    nofun

end

/-! ### The stuck condition (R35, R36) -/

theorem handOverStuck_engine {x : Port} : (s.handOverStuck p x).engine = s.engine := by
  have hsame : s.under s.engine p id = s := s.under_id
  have hunder := s.under_handOverStuck (e := s.engine) (p := p) (g := id) x
  rw [hsame] at hunder
  rw [show s.handOverStuck p x = (s.handOverStuck p x).under s.engine p id from hunder, State.under_engine]

theorem handOverStuck_nothing {x : Port}
    (hs : x.state = .idle ∨ x.state = .observing ∨ (x.state = .arbitrating ∧ x.frame.bind (·.turn) = none)) :
    s.handOverStuck p x = s := by
  unfold State.handOverStuck
  cases hf : x.frame with
  | none => rfl
  | some f =>
    rcases hs with hs | hs | ⟨hs, ht⟩
    · simp only [hs]
    · simp only [hs]
    · rw [hf] at ht
      simp only [hs, show f.turn = none from ht]

theorem handOverStuck_initiating {x : Port} (hs : x.state = .initiating) (hf : x.frame = some f) (ht : f.turn = some r) :
    s.handOverStuck p x = s.endAttempt r (some .busStuck) f.moved := by
  simp only [State.handOverStuck, hf, hs, ht]

theorem handOverStuck_arbitrating {x : Port} {y : StagedXfer} {e : ExecRec} (hs : x.state = .arbitrating) (hf : x.frame = some f)
    (ht : f.turn = some r) (hy : s.execOf r = some (y, e)) :
    s.handOverStuck p x = s.completeExec r .busStuck e.lastBytes := by
  simp only [State.handOverStuck, hf, hs, ht, State.stickTurn, hy]

section
variable {line : Line} {low : Time} (he : s.engine = .running ∨ s.engine = .halted) (hstop : (s.port p).stopPending = true)
  (hl : LowSince (s.port p) line low)
  (hnow : s.timeBase = low + BitVec.ofNat 32 (1000 * (s.port p).config.stuckLimit))
include he hstop hl hnow

theorem stuckCondition_stops
    (hs : (s.port p).state = .idle ∨ (s.port p).state = .observing ∨ (s.port p).state = .arbitrating ∨
      (s.port p).state = .initiating ∨ (s.port p).state = .serving)
    (ht : (s.count p .stuckEvents).handOverStuck p (s.port p) = t) :
    exec (.stuckCondition p line) s = .next (wentOff s p t) := by
  have hdue : dueAfter ((s.port p).lowSince line) (1000 * (s.port p).config.stuckLimit) s.timeBase = s.timeBase := by
    rw [lowSince_eq hl, dueAfter, micros, ← hnow, reach_self]
  have hengine : t.engine = s.engine := by
    rw [← ht, handOverStuck_engine]
    rfl
  have hexec : exec (.stuckCondition p line) s = .next ((wentOff s p (t.setSnapshot p none)).settle p s) := by
    refine congrArg Host.Outcome.next ((State.event_of_live (live_of_works he)).trans ?_)
    subst ht
    rcases hs with hs | hs | hs | hs | hs <;> simp only [hs, hdue, hstop, if_true] <;> rfl
  rw [hexec, wentOff_setSnapshot, settle_goesOn]
  · rw [wentOff_eq, State.inRingOrder_engine, enterOff_engine, hengine]
    exact he
  · rw [wentOff_eq, State.inRingOrder_port, enterOff_port_state]
    nofun
  · rw [wentOff_eq, State.inRingOrder_port, enterOff_port_state]
    nofun

end

/-- Settles O30: PORT_CONTROL by what it finds, the order of the completions, and a port with a stop pending. -/
theorem portControlByState : Obligations.PortControlByState := by
  refine ⟨fun s tag port sub h bck bda => ⟨fun hbad => ?bad, fun p hp => ?acts⟩, fun x => rfl, fun s tag p bck h => ?stop,
    fun s t => ?order, fun s p he hstop => ?pending⟩
  case bad =>
    exact ⟨congrArg _ (portControl_bad h hbad), congrArg _ (portControl_bad h hbad), congrArg _ (portControl_bad h hbad)⟩
  case acts =>
    intro x
    subst hp
    refine ⟨fun hsub hs => ?_, fun hsub hs => ?_, fun hsub hs => ?_, fun hsub hs => ?_⟩ <;> subst hsub
    · exact start_off h hs bck bda
    · exact start_busy h hs bck bda
    · exact recover_faulted h hs
    · exact recover_busy h hs
  case stop =>
    exact ⟨fun hs => stop_off h hs bck, fun hs => stop_at_once h hs bck, fun hs => stop_waits h hs bck,
      fun q expiry timer f v hs hw hf hv => stop_holding h hs hw hf hv bck⟩
  case order =>
    refine ⟨rfl, fun c => ?_⟩
    intro n
    rw [State.inRingOrder_cpl]
    refine ⟨rfl, take_inRingOrder .., ?_, inRingOrder_pairwise ..⟩
    rw [drop_inRingOrder]
    exact List.perm_insertionSort _ _
  case pending =>
    intro x off
    refine ⟨fun c t hc hstuck hjudge ht => ?happening, fun f n wire hs hf hpos => ?receiver,
      fun f n wire r y e hs hf ht hpos hy => ?initiator, fun line low hl hnow => ?stuck⟩
    case happening =>
      intro u
      obtain ⟨htengine, hexec⟩ := happening_stops he hstop hc hstuck hjudge ht
      have heu : u.engine = .running ∨ u.engine = .halted := by
        rw [show u.engine = t.engine from rfl, htengine]
        exact he
      have hport : u.port p = { t.port p with stopPending := true } := State.setPort_port_self ..
      refine ⟨fun hs => hexec.trans (congrArg _ (settle_stops heu ?_ ?_)),
        fun hi ho => hexec.trans (congrArg _ (settle_goesOn heu ?_ ?_))⟩
      · rw [hport]
      · rwa [hport]
      · rwa [hport]
      · rwa [hport]
    case receiver => exact headerJudgement_stops he hstop hf hpos hs wire
    case initiator => exact headerJudgement_wins_stopping he hf hpos hs ht hy wire
    case stuck =>
      intro counted
      refine ⟨fun hs => ?_, fun f r hf ht => ⟨fun hs => ?_, fun y e hs hy => ?_⟩, fun f hs hf => ?_⟩
      · exact stuckCondition_stops he hstop hl hnow (by tauto) (handOverStuck_nothing hs)
      · exact stuckCondition_stops he hstop hl hnow (by tauto) (handOverStuck_initiating hs hf ht)
      · exact stuckCondition_stops he hstop hl hnow (by tauto) (handOverStuck_arbitrating hs hf ht hy)
      · exact stuckCondition_stops he hstop hl hnow (by tauto) (handOverStuck_serving hs hf)

end Sys2Proof.Machine
end
